-- ==== Sys2Proof/Word.lean ====
section
/-! DEFINITION. The word types of PCA-CORE: the command word (R130), the byte, the 64-bit register
value (R28) and the handle (R35). -/

namespace Sys2Proof

/-- One 32-bit word of the command port, the stream's only unit (R106, R130). -/
abbrev Word := BitVec 32

/-- A byte: a `BYTES` or `SYMBOLS` element (R70, R110), or one 8-bit field of a command word (R131). -/
abbrev Byte := BitVec 8

/-- `Bits64`, the value a 64-bit register holds (R28): `toNat` is the spec's `u64`, `toInt` its `s64`. -/
abbrev Bits64 := BitVec 64

/-- A handle field, 0 to 255; 0 is the null handle (R9, R63). -/
abbrev Handle := BitVec 8

end Sys2Proof
end

