-- ==== Sys2Proof/Syntax.lean ====
section
/-! DEFINITION. The syntax of PCA-CORE's commands: one constructor of `Instr` per row of the opcode
map (30_encoding.md R140), its operands in field order A, B, C, D (and the 64-bit immediate of format
`L`). Register fields are `Fin` of their file's size, modes and kinds are names, handles are raw
bytes because no handle is checked at decode (R137). What the types leave too wide (a `c` field's
range by opcode, BUF_NEW's kinds, CARRIERS' block) is `Instr.WellFormed`. -/

namespace Sys2Proof

/-- An `i` field: one of `I0..I15` (R53, R132). -/
abbrev IReg := Fin 16

/-- An `f` field: one of `F0..F15` (R54, R132). -/
abbrev FReg := Fin 16

/-- An `r` field: one of `R0..R3`, or of `RF0..RF3` for MOVRF (R136). -/
abbrev RReg := Fin 4

/-- A `c` field: one of the eleven configuration registers (R57, R150). -/
inductive CfgReg where
  | bps | srate | sps | expf | sepi | bwdiv | dsps | carrier | fmin | fmax | gthresh
deriving DecidableEq, Repr

/-- The object kinds (R70); BUF_NEW's `k` field names one of the first five (R71). -/
inductive Kind where
  | bytes | reals | symbols | indices | mask | chanSyms | packer | stream | tracker | codec | mod | dem
deriving DecidableEq, Repr

/-- The `m` field of MOD_NEW and DEM_NEW (R139, R151). -/
inductive ModKind where
  | bfsk | ofdm | fhss
deriving DecidableEq, Repr

/-- The commands, in the order of the opcode map (R140). -/
inductive Instr where
  | nop
  | seti (a : IReg) (imm : Bits64)
  | setf (a : FReg) (imm : Bits64)
  | movr (a : IReg) (b : RReg)
  | addi (a b : IReg) (imm : Byte)
  | cfgWri (a : CfgReg) (b : IReg)
  | cfgWrf (a : CfgReg) (b : FReg)
  | cfgRd (a : CfgReg)
  | clrerr
  | reset
  | movrf (a : FReg) (b : RReg)
  | bufNew (a : Handle) (k : Kind)
  | bufFree (a : Handle)
  | bufLen (a : Handle)
  | bufPushi (a : Handle) (b : IReg)
  | bufPushf (a : Handle) (b : FReg)
  | bufGeti (a : Handle) (b : IReg)
  | bufGetf (a : Handle) (b : IReg)
  | bufSlice (a b : Handle) (c : IReg)
  | bufConcat (a b : Handle)
  | chGet (a b : Handle) (c : IReg)
  | pkNew (a : Handle)
  | pkWrbits (a : Handle) (b c : IReg)
  | pkWrbytes (a b : Handle)
  | pkFlush (a b : Handle)
  | stNew (a b : Handle) (circular : Bool)
  | stRdbits (a b : Handle) (c : IReg)
  | stRdu (a : Handle) (b c : IReg)
  | stRds (a : Handle) (b c : IReg)
  | stPeek (a b : Handle)
  | stRemain (a : Handle)
  | trkNew (a b : Handle) (c : IReg)
  | trkNext (a : Handle) (b : IReg)
  | trkTolist (a b : Handle) (c : IReg)
  | codecMan (a : Handle)
  | codecRs (a : Handle) (b c : IReg)
  | codecEnc (a b c : Handle)
  | codecDec (a b c d : Handle)
  | codecInfo (a : Handle)
  | carriers (a : Handle) (b : FReg)
  | modNew (a : Handle) (m : ModKind)
  | modRun (a b c d : Handle)
  | modInfo (a b : Handle)
  | demNew (a : Handle) (m : ModKind)
  | demRun (a b c : Handle)
  | demSoft (a b c : Handle)
  | demAssemble (a b : Handle) (c : IReg)
  | demInfo (a : Handle)
  | trGardner (a b : Handle) (c : IReg)
  | trDecide (a b c : Handle)
  | syncLocate (a b : Handle)
  | syncMulti (a b : Handle)
deriving DecidableEq, Repr

end Sys2Proof
end

