-- ==== Sys2Proof/WellFormed.lean ====
section
/-! DEFINITION. The checks a command must pass that its syntax does not force: the `c` ranges of R150,
BUF_NEW's kinds (R71, R132) and the `fb` range of CARRIERS (R132). -/

namespace Sys2Proof

/-- `BPS` to `DSPS`, registers 0 to 6, hold an `Int`; the other four hold a `Num` (R57). -/
def CfgReg.isInt : CfgReg → Bool
  | .bps | .srate | .sps | .expf | .sepi | .bwdiv | .dsps => true
  | .carrier | .fmin | .fmax | .gthresh => false

/-- The kinds BUF_NEW creates, codes 1 to 5 (R71): the "list" kinds of R140. -/
def Kind.isList : Kind → Bool
  | .bytes | .reals | .symbols | .indices | .mask => true
  | .chanSyms | .packer | .stream | .tracker | .codec | .mod | .dem => false

/-- Whether a command is legal (R145): the remaining field ranges that the syntax leaves open. -/
def Instr.WellFormed : Instr → Bool
  | .cfgWri a _ => a.isInt
  | .cfgWrf a _ => !a.isInt
  | .bufNew _ k => k.isList
  | .carriers _ b => b.val ≤ 13
  | .nop | .seti _ _ | .setf _ _ | .movr _ _ | .addi _ _ _ | .cfgRd _ | .clrerr | .reset
  | .movrf _ _ | .bufFree _ | .bufLen _ | .bufPushi _ _ | .bufPushf _ _ | .bufGeti _ _
  | .bufGetf _ _ | .bufSlice _ _ _ | .bufConcat _ _ | .chGet _ _ _ | .pkNew _ | .pkWrbits _ _ _
  | .pkWrbytes _ _ | .pkFlush _ _ | .stNew _ _ _ | .stRdbits _ _ _ | .stRdu _ _ _ | .stRds _ _ _
  | .stPeek _ _ | .stRemain _ | .trkNew _ _ _ | .trkNext _ _ | .trkTolist _ _ _ | .codecMan _
  | .codecRs _ _ _ | .codecEnc _ _ _ | .codecDec _ _ _ _ | .codecInfo _ | .modNew _ _
  | .modRun _ _ _ _ | .modInfo _ _ | .demNew _ _ | .demRun _ _ _ | .demSoft _ _ _
  | .demAssemble _ _ _ | .demInfo _ | .trGardner _ _ _ | .trDecide _ _ _ | .syncLocate _ _
  | .syncMulti _ _ => true

end Sys2Proof
end

