-- ==== Sys2Proof/Decode.lean ====
section
/-! DEFINITION. Decoding of command words (30_encoding.md R130 to R152) and, after it, the encoder
(R162). Decoding is total on every list of words and rejects by name; every rejection is the one
status `ILLEGAL_COMMAND` (R145). -/

namespace Sys2Proof

/-! ### Words and fields -/

/-- Format `H` (R131): `OP` in bits 7..0, `A` in 15..8, `B` in 23..16, `C` in 31..24. -/
def headerOf (op a b c : Byte) : Word := c ++ b ++ a ++ op

/-- Bits `[7:0]` of a header word (R131), and of a format-`X` extension word (R135). -/
def fieldOp (w : Word) : Byte := w.extractLsb' 0 8

/-- Bits `[15:8]` (R131). -/
def fieldA (w : Word) : Byte := w.extractLsb' 8 8

/-- Bits `[23:16]` (R131). -/
def fieldB (w : Word) : Byte := w.extractLsb' 16 8

/-- Bits `[31:24]` (R131). -/
def fieldC (w : Word) : Byte := w.extractLsb' 24 8

/-- A command's length in words, decided by its opcode alone (R133). -/
def commandLength (h : Word) : Nat :=
  match (fieldOp h).toNat with
  | 0x01 | 0x02 => 3
  | 0x43 | 0x52 => 2
  | _ => 1

/-! ### Codes of the named operands -/

/-- The number of a configuration register (R57). -/
def CfgReg.code : CfgReg → Byte
  | .bps => 0 | .srate => 1 | .sps => 2 | .expf => 3 | .sepi => 4 | .bwdiv => 5 | .dsps => 6
  | .carrier => 7 | .fmin => 8 | .fmax => 9 | .gthresh => 10

/-- The configuration register with a given number; 11 to 255 name none (R57, R150). -/
def CfgReg.ofCode? (v : Byte) : Option CfgReg :=
  match v.toNat with
  | 0 => some .bps | 1 => some .srate | 2 => some .sps | 3 => some .expf | 4 => some .sepi
  | 5 => some .bwdiv | 6 => some .dsps | 7 => some .carrier | 8 => some .fmin | 9 => some .fmax
  | 10 => some .gthresh | _ => none

/-- The kind codes of R70. -/
def Kind.code : Kind → Byte
  | .bytes => 1 | .reals => 2 | .symbols => 3 | .indices => 4 | .mask => 5 | .chanSyms => 6
  | .packer => 7 | .stream => 8 | .tracker => 9 | .codec => 10 | .mod => 11 | .dem => 12

/-- The kind a `k` field names: codes 1 to 5 only (R71, R132). -/
def Kind.ofField? (v : Byte) : Option Kind :=
  match v.toNat with
  | 1 => some .bytes | 2 => some .reals | 3 => some .symbols | 4 => some .indices
  | 5 => some .mask | _ => none

/-- 0 for BFSK, 1 for OFDM, 2 for FHSS (R139). -/
def ModKind.code : ModKind → Byte
  | .bfsk => 0 | .ofdm => 1 | .fhss => 2

/-- The kind an `m` field of MOD_NEW or DEM_NEW names (R151). -/
def ModKind.ofCode? (v : Byte) : Option ModKind :=
  match v.toNat with
  | 0 => some .bfsk | 1 => some .ofdm | 2 => some .fhss | _ => none

/-- ST_NEW's `m` field: 0 linear, 1 circular (R139). -/
def circularCode : Bool → Byte
  | false => 0
  | true => 1

/-! ### Decoding -/

/-- Why a command is illegal (R145), and `wordCount` for a list of words that is no whole command
(R152 never delivers one). -/
inductive Reject where
  | undefinedOpcode | reservedField | registerField | configField | kindField | modeField
  | blockField | reservedExtension | wordCount
deriving DecidableEq, Repr

/-- A field with role `0` (R132, R145). -/
def zeroField (v : Byte) : Except Reject Unit :=
  if v = 0 then .ok () else .error .reservedField

/-- An `i` or `f` field: at most 15 (R132, R145). -/
def reg16Field (v : Byte) : Except Reject (Fin 16) :=
  if h : v.toNat < 16 then .ok ⟨v.toNat, h⟩ else .error .registerField

/-- An `r` field: at most 3 (R132, R145). -/
def reg4Field (v : Byte) : Except Reject RReg :=
  if h : v.toNat < 4 then .ok ⟨v.toNat, h⟩ else .error .registerField

/-- A `c` field of CFG_RD: 0 to 10 (R150). -/
def cfgField (v : Byte) : Except Reject CfgReg :=
  match CfgReg.ofCode? v with
  | some r => .ok r
  | none => .error .configField

/-- A `c` field of CFG_WRI: 0 to 6 (R150). -/
def cfgIntField (v : Byte) : Except Reject CfgReg := do
  let r ← cfgField v
  if r.isInt then .ok r else .error .configField

/-- A `c` field of CFG_WRF: 7 to 10 (R150). -/
def cfgNumField (v : Byte) : Except Reject CfgReg := do
  let r ← cfgField v
  if r.isInt then .error .configField else .ok r

/-- A `k` field: 1 to 5 (R132). -/
def kindField (v : Byte) : Except Reject Kind :=
  match Kind.ofField? v with
  | some k => .ok k
  | none => .error .kindField

/-- An `m` field of MOD_NEW or DEM_NEW: 0 to 2 (R151). -/
def modeField (v : Byte) : Except Reject ModKind :=
  match ModKind.ofCode? v with
  | some m => .ok m
  | none => .error .modeField

/-- The `m` field of ST_NEW: 0 or 1 (R151). -/
def circularField (v : Byte) : Except Reject Bool :=
  match v.toNat with
  | 0 => .ok false
  | 1 => .ok true
  | _ => .error .modeField

/-- An `fb` field: at most 13 (R132). -/
def blockField (v : Byte) : Except Reject FReg := do
  let r ← reg16Field v
  if r.val ≤ 13 then .ok r else .error .blockField

/-- Format `L`'s immediate, `E1 << 32 | E2` (R134). -/
def longImmediate : List Word → Except Reject Bits64
  | [e1, e2] => .ok (e1 ++ e2)
  | _ => .error .wordCount

/-- Format `X`'s fourth operand; bits `[31:8]` are reserved (R135). -/
def extendedHandle : List Word → Except Reject Handle
  | [e] => if e.extractLsb' 8 24 = 0 then .ok (fieldOp e) else .error .reservedExtension
  | _ => .error .wordCount

/-- The opcode map (R140) with the roles of R132: the fields of a header word, and the extension words. -/
def decodeFields (op : Nat) (a b c : Byte) (ext : List Word) : Except Reject Instr :=
  match op with
  | 0x00 => do zeroField a; zeroField b; zeroField c; return .nop
  | 0x01 => do let ra ← reg16Field a; zeroField b; zeroField c; let v ← longImmediate ext; return .seti ra v
  | 0x02 => do let ra ← reg16Field a; zeroField b; zeroField c; let v ← longImmediate ext; return .setf ra v
  | 0x03 => do let ra ← reg16Field a; let rb ← reg4Field b; zeroField c; return .movr ra rb
  | 0x04 => do let ra ← reg16Field a; let rb ← reg16Field b; return .addi ra rb c
  | 0x05 => do let ra ← cfgIntField a; let rb ← reg16Field b; zeroField c; return .cfgWri ra rb
  | 0x06 => do let ra ← cfgNumField a; let rb ← reg16Field b; zeroField c; return .cfgWrf ra rb
  | 0x07 => do let ra ← cfgField a; zeroField b; zeroField c; return .cfgRd ra
  | 0x08 => do zeroField a; zeroField b; zeroField c; return .clrerr
  | 0x09 => do zeroField a; zeroField b; zeroField c; return .reset
  | 0x0A => do let ra ← reg16Field a; let rb ← reg4Field b; zeroField c; return .movrf ra rb
  | 0x10 => do let k ← kindField b; zeroField c; return .bufNew a k
  | 0x11 => do zeroField b; zeroField c; return .bufFree a
  | 0x12 => do zeroField b; zeroField c; return .bufLen a
  | 0x13 => do let rb ← reg16Field b; zeroField c; return .bufPushi a rb
  | 0x14 => do let rb ← reg16Field b; zeroField c; return .bufPushf a rb
  | 0x15 => do let rb ← reg16Field b; zeroField c; return .bufGeti a rb
  | 0x16 => do let rb ← reg16Field b; zeroField c; return .bufGetf a rb
  | 0x17 => do let rc ← reg16Field c; return .bufSlice a b rc
  | 0x18 => do zeroField c; return .bufConcat a b
  | 0x19 => do let rc ← reg16Field c; return .chGet a b rc
  | 0x20 => do zeroField b; zeroField c; return .pkNew a
  | 0x21 => do let rb ← reg16Field b; let rc ← reg16Field c; return .pkWrbits a rb rc
  | 0x22 => do zeroField c; return .pkWrbytes a b
  | 0x23 => do zeroField c; return .pkFlush a b
  | 0x24 => do let m ← circularField c; return .stNew a b m
  | 0x25 => do let rc ← reg16Field c; return .stRdbits a b rc
  | 0x26 => do let rb ← reg16Field b; let rc ← reg16Field c; return .stRdu a rb rc
  | 0x27 => do let rb ← reg16Field b; let rc ← reg16Field c; return .stRds a rb rc
  | 0x28 => do zeroField c; return .stPeek a b
  | 0x29 => do zeroField b; zeroField c; return .stRemain a
  | 0x30 => do let rc ← reg16Field c; return .trkNew a b rc
  | 0x31 => do let rb ← reg16Field b; zeroField c; return .trkNext a rb
  | 0x32 => do let rc ← reg16Field c; return .trkTolist a b rc
  | 0x40 => do zeroField b; zeroField c; return .codecMan a
  | 0x41 => do let rb ← reg16Field b; let rc ← reg16Field c; return .codecRs a rb rc
  | 0x42 => .ok (.codecEnc a b c)
  | 0x43 => do let d ← extendedHandle ext; return .codecDec a b c d
  | 0x44 => do zeroField b; zeroField c; return .codecInfo a
  | 0x50 => do let fb ← blockField b; zeroField c; return .carriers a fb
  | 0x51 => do let m ← modeField b; zeroField c; return .modNew a m
  | 0x52 => do let d ← extendedHandle ext; return .modRun a b c d
  | 0x53 => do zeroField c; return .modInfo a b
  | 0x60 => do let m ← modeField b; zeroField c; return .demNew a m
  | 0x61 => .ok (.demRun a b c)
  | 0x62 => .ok (.demSoft a b c)
  | 0x63 => do let rc ← reg16Field c; return .demAssemble a b rc
  | 0x64 => do zeroField b; zeroField c; return .demInfo a
  | 0x68 => do let rc ← reg16Field c; return .trGardner a b rc
  | 0x69 => .ok (.trDecide a b c)
  | 0x70 => do zeroField c; return .syncLocate a b
  | 0x71 => do zeroField c; return .syncMulti a b
  | _ => .error .undefinedOpcode

/-- A header word and its extension words (R131, R140). -/
def decodeCommand (h : Word) (ext : List Word) : Except Reject Instr :=
  decodeFields (fieldOp h).toNat (fieldA h) (fieldB h) (fieldC h) ext

/-- The command a list of words is (R130, R145, R152): its length must be the one its opcode fixes. -/
def decode (ws : List Word) : Except Reject Instr :=
  match ws with
  | [] => .error .wordCount
  | h :: ext => if ext.length + 1 = commandLength h then decodeCommand h ext else .error .wordCount

/-! ### Encoding (R162) -/

/-- A register number in an 8-bit field (R132). -/
def regByte {n : Nat} (r : Fin n) : Byte := BitVec.ofNat 8 r.val

/-- The header word of a command (R131, R140, R162); reserved fields are 0. -/
def headerWord : Instr → Word
  | .nop => headerOf 0x00 0 0 0
  | .seti a _ => headerOf 0x01 (regByte a) 0 0
  | .setf a _ => headerOf 0x02 (regByte a) 0 0
  | .movr a b => headerOf 0x03 (regByte a) (regByte b) 0
  | .addi a b v => headerOf 0x04 (regByte a) (regByte b) v
  | .cfgWri a b => headerOf 0x05 a.code (regByte b) 0
  | .cfgWrf a b => headerOf 0x06 a.code (regByte b) 0
  | .cfgRd a => headerOf 0x07 a.code 0 0
  | .clrerr => headerOf 0x08 0 0 0
  | .reset => headerOf 0x09 0 0 0
  | .movrf a b => headerOf 0x0A (regByte a) (regByte b) 0
  | .bufNew a k => headerOf 0x10 a k.code 0
  | .bufFree a => headerOf 0x11 a 0 0
  | .bufLen a => headerOf 0x12 a 0 0
  | .bufPushi a b => headerOf 0x13 a (regByte b) 0
  | .bufPushf a b => headerOf 0x14 a (regByte b) 0
  | .bufGeti a b => headerOf 0x15 a (regByte b) 0
  | .bufGetf a b => headerOf 0x16 a (regByte b) 0
  | .bufSlice a b c => headerOf 0x17 a b (regByte c)
  | .bufConcat a b => headerOf 0x18 a b 0
  | .chGet a b c => headerOf 0x19 a b (regByte c)
  | .pkNew a => headerOf 0x20 a 0 0
  | .pkWrbits a b c => headerOf 0x21 a (regByte b) (regByte c)
  | .pkWrbytes a b => headerOf 0x22 a b 0
  | .pkFlush a b => headerOf 0x23 a b 0
  | .stNew a b m => headerOf 0x24 a b (circularCode m)
  | .stRdbits a b c => headerOf 0x25 a b (regByte c)
  | .stRdu a b c => headerOf 0x26 a (regByte b) (regByte c)
  | .stRds a b c => headerOf 0x27 a (regByte b) (regByte c)
  | .stPeek a b => headerOf 0x28 a b 0
  | .stRemain a => headerOf 0x29 a 0 0
  | .trkNew a b c => headerOf 0x30 a b (regByte c)
  | .trkNext a b => headerOf 0x31 a (regByte b) 0
  | .trkTolist a b c => headerOf 0x32 a b (regByte c)
  | .codecMan a => headerOf 0x40 a 0 0
  | .codecRs a b c => headerOf 0x41 a (regByte b) (regByte c)
  | .codecEnc a b c => headerOf 0x42 a b c
  | .codecDec a b c _ => headerOf 0x43 a b c
  | .codecInfo a => headerOf 0x44 a 0 0
  | .carriers a b => headerOf 0x50 a (regByte b) 0
  | .modNew a m => headerOf 0x51 a m.code 0
  | .modRun a b c _ => headerOf 0x52 a b c
  | .modInfo a b => headerOf 0x53 a b 0
  | .demNew a m => headerOf 0x60 a m.code 0
  | .demRun a b c => headerOf 0x61 a b c
  | .demSoft a b c => headerOf 0x62 a b c
  | .demAssemble a b c => headerOf 0x63 a b (regByte c)
  | .demInfo a => headerOf 0x64 a 0 0
  | .trGardner a b c => headerOf 0x68 a b (regByte c)
  | .trDecide a b c => headerOf 0x69 a b c
  | .syncLocate a b => headerOf 0x70 a b 0
  | .syncMulti a b => headerOf 0x71 a b 0

/-- The extension words (R134, R135). -/
def extensionWords : Instr → List Word
  | .seti _ v | .setf _ v => [v.extractLsb' 32 32, v.extractLsb' 0 32]
  | .codecDec _ _ _ d | .modRun _ _ _ d => [d.setWidth 32]
  | .nop | .movr _ _ | .addi _ _ _ | .cfgWri _ _ | .cfgWrf _ _ | .cfgRd _ | .clrerr | .reset
  | .movrf _ _ | .bufNew _ _ | .bufFree _ | .bufLen _ | .bufPushi _ _ | .bufPushf _ _
  | .bufGeti _ _ | .bufGetf _ _ | .bufSlice _ _ _ | .bufConcat _ _ | .chGet _ _ _ | .pkNew _
  | .pkWrbits _ _ _ | .pkWrbytes _ _ | .pkFlush _ _ | .stNew _ _ _ | .stRdbits _ _ _
  | .stRdu _ _ _ | .stRds _ _ _ | .stPeek _ _ | .stRemain _ | .trkNew _ _ _ | .trkNext _ _
  | .trkTolist _ _ _ | .codecMan _ | .codecRs _ _ _ | .codecEnc _ _ _ | .codecInfo _
  | .carriers _ _ | .modNew _ _ | .modInfo _ _ | .demNew _ _ | .demRun _ _ _ | .demSoft _ _ _
  | .demAssemble _ _ _ | .demInfo _ | .trGardner _ _ _ | .trDecide _ _ _ | .syncLocate _ _
  | .syncMulti _ _ => []

/-- A command's words, in issue order (R162). -/
def encode (i : Instr) : List Word := headerWord i :: extensionWords i

/-! ### The opcode table's numbering -/

/-- The words of the command whose bits are `w`, numbered as spec/opcode_table.json numbers them: the
first word holds the least significant 32 bits. Bits from `nbits` up are 0. -/
def tableWords (nbits w : Nat) : List Word :=
  let v := w % 2 ^ nbits
  (List.range (commandLength (BitVec.ofNat 32 v))).map fun k => BitVec.ofNat 32 (v >>> (32 * k))

/-- The command the decoder reads from the bits `w` (none where it refuses). -/
def decodeTableWord (nbits w : Nat) : Option Instr :=
  match decode (tableWords nbits w) with
  | .ok i => some i
  | .error _ => none

end Sys2Proof
end

