-- ==== Sys2Proof/Config.lean ====
section
/-! DEFINITION. The implementation parameters of PCA-CORE (00_scope.md R7 to R22): the number format
`Num`, the capacity, the Reed-Solomon tail policy, the filter plan, the hopper's draws and the
external ports. None of them is block state (R51). They are the fields of ONE record `Params`, which
every meaning takes as an argument, and the machine runs at the opaque constant `Config.params`: no
proof can see which implementation it is, so a claim about the machine holds for every one. -/

namespace Sys2Proof

/-- A number of the format `Num` (R7), held as the code its implementation gives it. The spec leaves
the format open: the operations, and the two transport conversions, are `NumOps`'. DESIGN CHOICE
(notes/assumptions/1.md): the format has at most countably many values. -/
structure Number where
  code : Nat
deriving DecidableEq, Repr, Inhabited

/-- A designed filter, opaque (R20): the block only hands it back to `groupDelay` and `apply`.
DESIGN CHOICE (notes/assumptions/2.md): there are at most countably many filters. -/
structure Filter where
  code : Nat
deriving DecidableEq, Repr, Inhabited

/-- The operations of the number format `Num` (R7). Nothing is assumed of them: every law of
arithmetic or of order that a claim needs is a hypothesis of that claim. -/
structure NumOps where
  add : Number → Number → Number
  sub : Number → Number → Number
  mul : Number → Number → Number
  div : Number → Number → Number
  neg : Number → Number
  abs : Number → Number
  lt : Number → Number → Bool
  le : Number → Number → Bool
  eq : Number → Number → Bool
  gt : Number → Number → Bool
  ge : Number → Number → Bool
  isFinite : Number → Bool
  ofInt : Int → Number
  ofBinary64 : Bits64 → Number
  toBinary64 : Number → Bits64
deriving Inhabited

/-- What the planner returns: `(f0, f1, deltaF, bw)` (R14). -/
structure Plan where
  f0 : Number
  f1 : Number
  deltaF : Number
  bw : Number
deriving DecidableEq, Repr, Inhabited

/-- A BFSK parameter set `(carrier, f0, f1, deltaF, bw)` (R72, R367). -/
structure ToneSet where
  carrier : Number
  f0 : Number
  f1 : Number
  deltaF : Number
  bw : Number
deriving DecidableEq, Repr, Inhabited

/-- The arguments of the bandpass design port (R16). -/
structure BandpassArgs where
  stop1 : Number
  pass1 : Number
  pass2 : Number
  stop2 : Number
  passAtt : Number
  stopAtt : Number
  rateArg : Number
deriving DecidableEq, Repr, Inhabited

/-- The arguments of the lowpass design port (R17). -/
structure LowpassArgs where
  pass : Number
  stop : Number
  passAtt : Number
  stopAtt : Number
  rateArg : Number
deriving DecidableEq, Repr, Inhabited

/-- What `FilterPlan.envLP` fixes: everything but the pass edge, which R413 sets to `bw` (R12). -/
structure EnvelopeArgs where
  stop : Number
  passAtt : Number
  stopAtt : Number
  rateArg : Number
deriving DecidableEq, Repr, Inhabited

/-- The sub-band an OFDM or FHSS channel is built for: its centre and the common width `W` (R415). -/
structure SubBand where
  centre : Number
  width : Number
deriving DecidableEq, Repr, Inhabited

/-- The demodulator's design context (R415): `sub` is absent for BFSK. -/
structure DesignCtx where
  sps : Nat
  rate : Nat
  dsps : Nat
  tones : ToneSet
  sub : Option SubBand
deriving DecidableEq, Repr, Inhabited

/-- The OFDM modulator's design context `ctx_ch` (R375). -/
structure BandCtx where
  sps : Nat
  rate : Nat
  sub : SubBand
  tones : ToneSet
deriving DecidableEq, Repr, Inhabited

/-- `FilterPlan` (R12): the filter-design arguments the spec leaves open, as functions of the design
context. -/
structure FilterPlan where
  ofdmBand : BandCtx → BandpassArgs
  demodAtt : DesignCtx → Number × Number
  interpLP : DesignCtx → LowpassArgs
  envLP : DesignCtx → EnvelopeArgs
  smoothLP : DesignCtx → LowpassArgs
deriving Inhabited

/-- `rsTailPolicy` (R11, R335). -/
inductive TailPolicy where
  | padZero
  | drop
  | fault
deriving DecidableEq, Repr, Inhabited

/-- Every implementation parameter of the block (R7 to R22). The fields whose names end in `Raw` are
the ports without the constraints R13, R15, R16, R17 and R22 put on them; Machine/Ports.lean imposes
those, so that exactly the implementations the spec admits remain. -/
structure Params where
  /-- The number format (R7). -/
  num : NumOps
  /-- How far `MAX_ELEMS` lies above the required floor `2^16` (R8). -/
  elemsAboveFloor : Nat
  /-- The decoder's tail policy (R11). -/
  rsTailPolicy : TailPolicy
  /-- The filter plan (R12). -/
  plan : FilterPlan
  /-- The hopper: the draw with a given number, for a given channel count (R13). -/
  hopRaw : Nat → Nat → Nat
  /-- The frequency planner (R14): `sps`, `rate`, `carrier`, `sepIntervals`. -/
  planFSK : Nat → Nat → Number → Int → Option Plan
  /-- Tone synthesis (R15): `len`, `rate`, `freqs`. -/
  synthRaw : Nat → Nat → List Number → List Number
  /-- Bandpass design (R16). -/
  designBPRaw : BandpassArgs → Option Filter
  /-- Lowpass design (R17). -/
  designLPRaw : LowpassArgs → Option Filter
  /-- Group delay (R18). -/
  groupDelay : Filter → Nat
  /-- Filter application (R19): nothing is assumed of its length or values (U8). -/
  applyFilter : Filter → List Number → List Number
  /-- Whether the Reed-Solomon codec `(n, k)` can be built (R22). -/
  rsAccepts : Nat → Nat → Bool
  /-- Reed-Solomon encoding of one block (R22). -/
  rsEncodeRaw : Nat → Nat → List Byte → List Byte
  /-- Reed-Solomon decoding of one block, `none` at each erased position (R22). -/
  rsDecodeRaw : Nat → Nat → List (Option Byte) → Option (List Byte)
deriving Inhabited

/-- The implementation this machine is: opaque, so that nothing can be proved of its fields
(93_implementation_defined.md U1, U5 to U8, U13 to U17, U21). -/
opaque Config.params : Params

/-- The floor `2^16` that R8 requires of `MAX_ELEMS`. -/
def Config.elemsFloor : Nat := 65536

/-- `MAX_ELEMS` (R8). -/
def Params.maxElems (P : Params) : Nat := P.elemsAboveFloor + Config.elemsFloor

end Sys2Proof
end

