-- ==== Sys2Proof/Machine/State.lean ====
section
/-! DEFINITION. The state of PCA-CORE as plain data: the architectural record of 10_state.md R51, and
beside it the host's side of the command port and the count of hopper draws, which are inputs and not
block state (R13, R104, R700). -/

namespace Sys2Proof.Machine

/-- `N >= 1` like things in channel order (R70, R72, R73): the first and the others. -/
structure Bank (α : Type) where
  first : α
  rest : List α
deriving DecidableEq, Repr

/-- A `STREAM` object (R70): its source's handle, its mode, and its read cursor in bits. -/
structure Stream where
  src : Handle
  circular : Bool
  rd : Nat
deriving DecidableEq, Repr

/-- A `TRACKER` object (R70): its source's handle, its bits per symbol, and its read cursor in bits. -/
structure Tracker where
  src : Handle
  bps : Nat
  rd : Nat
deriving DecidableEq, Repr

/-- `ckind` of a codec (R70). -/
inductive CodecKind where
  | manchester
  | rs
deriving DecidableEq, Repr

/-- A `CODEC` object (R70): its lengths are bit counts. -/
structure Codec where
  ckind : CodecKind
  blockLength : Nat
  messageLength : Nat
deriving DecidableEq, Repr

/-- One OFDM modulator channel (R72): its sub-modulator, whose carrier is the sub-band's centre
(R366), and its bandpass filter (R375). -/
structure OfdmLane where
  tones : ToneSet
  filt : Filter
deriving DecidableEq, Repr

/-- The fields of a modulator that depend on its `mkind` (R72). The list `centers` is the list of the
channels' carriers (R366) and is not stored twice. -/
inductive ModBody where
  | bfsk (tones : ToneSet)
  | ofdm (base : Plan) (width : Number) (lanes : Bank OfdmLane)
  | fhss (base : Plan) (width : Number) (lanes : Bank ToneSet)
deriving DecidableEq, Repr

/-- A `MOD` object (R72). -/
structure Modulator where
  sps : Nat
  rate : Nat
  expf : Nat
  sepi : Int
  body : ModBody
deriving DecidableEq, Repr

/-- A demodulator channel without its stage-6 filter (R73). -/
structure Chan where
  tones : ToneSet
  t0 : Number
  t1 : Number
  bp0 : Filter
  bp1 : Filter
  gd0 : Nat
  gd1 : Nat
  lpi : Filter
  lpe : Filter
deriving DecidableEq, Repr

/-- A BFSK or OFDM demodulator channel, which has its own stage-6 lowpass (R73, R414). -/
structure SmoothChan where
  chan : Chan
  lp6 : Filter
deriving DecidableEq, Repr

/-- The fields of a demodulator that depend on its `dkind` (R73); `centers` is the list of the
channels' carriers (R416). -/
inductive DemBody where
  | bfsk (chan : SmoothChan)
  | ofdm (base : Plan) (width : Number) (chans : Bank SmoothChan)
  | fhss (base : Plan) (width : Number) (chans : Bank Chan) (lp6c : Filter)
deriving DecidableEq, Repr

/-- A `DEM` object (R73): `decim`, `gardnerSps` and `window` are the spec's `D`, `G` and `M`. -/
structure Demodulator where
  sps : Nat
  rate : Nat
  dsps : Nat
  sepi : Int
  thr : Number
  decim : Nat
  gardnerSps : Nat
  window : Nat
  body : DemBody
deriving DecidableEq, Repr

/-- An object, one constructor per kind of R70. `INDICES` elements are 64-bit signed (R110). -/
inductive Obj where
  | bytes (xs : List Byte)
  | reals (xs : List Number)
  | symbols (xs : List Byte)
  | indices (xs : List Bits64)
  | mask (xs : List Bool)
  | chanSyms (chs : Bank (List Byte))
  | packer (bits : List Bool)
  | stream (st : Stream)
  | tracker (tr : Tracker)
  | codec (c : Codec)
  | mod (m : Modulator)
  | dem (d : Demodulator)
deriving DecidableEq, Repr

/-- The object memory (R63) as (handle, object) pairs in one canonical form (`slotsWf`): handles
strictly rising, and a handle that is not listed is `EMPTY`. -/
abbrev Slots := List (Nat × Obj)

/-- The command decoder `DEC` (R52), the machine's only sequencing state. -/
inductive Decoder where
  | idle
  | collecting (header : Word) (need : Nat) (got : List Word)
deriving DecidableEq, Repr

/-- The configuration registers (R57). -/
structure Cfg where
  bps : Bits64
  srate : Bits64
  sps : Bits64
  expf : Bits64
  sepi : Bits64
  bwdiv : Bits64
  dsps : Bits64
  carrier : Number
  fmin : Number
  fmax : Number
  gthresh : Number
deriving DecidableEq, Repr

/-- The host's three operations (R104). -/
inductive HostOp where
  | issue (w : Word)
  | read (a : BitVec 12)
  | resetLine
deriving DecidableEq, Repr

/-- The machine's state. The first ten fields are R51's record (`iregs`, `fregs`, `rregs`, `rfregs`
are the files `I`, `F`, `R`, `RF`). The last three are the model's own: how many hopper draws have
been taken (R13; DESIGN CHOICE, notes/assumptions/4.md), the host operations still to come, oldest first,
and the values the host's reads returned, oldest first (R104; DESIGN CHOICE, notes/assumptions/5.md). -/
structure State where
  dec : Decoder
  iregs : Vector Bits64 16
  fregs : Vector Number 16
  rregs : Vector Bits64 4
  rfregs : Vector Number 4
  cfg : Cfg
  status : Bits64
  sticky : Bits64
  errcmd : Bits64
  slots : Slots
  hopDraws : Nat
  pending : List HostOp
  replies : List Bits64
deriving DecidableEq, Repr

/-- Why a machine would stop. PCA-CORE has no fatal state: after any status the block accepts the next
command (R600), and R145 gives every word sequence a meaning, so no fault exists. -/
inductive Fault where
deriving DecidableEq, Repr

/-- Why a step has no meaning. -/
inductive Refusal where
  /-- Raised by an arm of `exec` whose instruction has no meaning yet; no arm does. Safe: the model
  stops where the hardware goes on. -/
  | notModelled (mnemonic : String)
deriving DecidableEq, Repr

/-- The configuration registers at reset (R57, R700): the literal is the binary64 pattern of `1e-4`. -/
def Cfg.resetWith (P : Params) : Cfg where
  bps := 0
  srate := 0
  sps := 0
  expf := 0
  sepi := 0
  bwdiv := 0
  dsps := 0
  carrier := P.num.ofInt 0
  fmin := P.num.ofInt 0
  fmax := P.num.ofInt 0
  gthresh := P.num.ofBinary64 0x3F1A36E2EB1C432D

/-- `ResetState` (R700) of an implementation: no host operation pending and no draw taken. -/
def State.resetWith (P : Params) : State where
  dec := .idle
  iregs := Vector.replicate 16 0
  fregs := Vector.replicate 16 (P.num.ofInt 0)
  rregs := Vector.replicate 4 0
  rfregs := Vector.replicate 4 (P.num.ofInt 0)
  cfg := Cfg.resetWith P
  status := 0
  sticky := 0
  errcmd := 0
  slots := []
  hopDraws := 0
  pending := []
  replies := []

/-- The machine right after reset (R700, R702). -/
def State.reset : State := State.resetWith Config.params

end Sys2Proof.Machine
end

