-- ==== Sys2Proof/Machine/Flags.lean ====
section
/-! DEFINITION. The status codes (60_exceptions.md R600) and the computation of `STATUS`, `STICKY` and
`ERRCMD` when a command ends (10_state.md R58 to R60, R603). PCA-CORE has no other flags. -/

namespace Sys2Proof.Machine

/-- The non-failing statuses, codes 0 to 2: the command's writes are kept (R600, R605). -/
inductive Completion where
  | ok
  | decodeRecovered
  | shortRead
deriving DecidableEq, Repr

/-- The failing statuses, codes 3 to 13: the command has no effect but the status registers (R600,
R604). -/
inductive Failure where
  | syncError
  | constructionError
  | configurationError
  | invalidWidth
  | nullBuffer
  | invalidValue
  | handleBusy
  | capacity
  | illegalCommand
  | wrongKind
  | emptyCircular
deriving DecidableEq, Repr

/-- The code of a non-failing status (R600). -/
def Completion.code : Completion → Nat
  | .ok => 0
  | .decodeRecovered => 1
  | .shortRead => 2

/-- The code of a failing status (R600). -/
def Failure.code : Failure → Nat
  | .syncError => 3
  | .constructionError => 4
  | .configurationError => 5
  | .invalidWidth => 6
  | .nullBuffer => 7
  | .invalidValue => 8
  | .handleBusy => 9
  | .capacity => 10
  | .illegalCommand => 11
  | .wrongKind => 12
  | .emptyCircular => 13

/-- `STICKY` after a command ends with a code: bit `code` is set, and bit 0 never is (R59). -/
def stickyAfter (sticky : Bits64) (code : Nat) : Bits64 :=
  if code = 0 then sticky else sticky ||| (1 <<< code)

/-- `ERRCMD` after a command with a given header ends with a code: a non-zero status records the header,
zero-extended (R60). -/
def errcmdAfter (errcmd : Bits64) (header : Word) (code : Nat) : Bits64 :=
  if code = 0 then errcmd else header.setWidth 64

/-- The three status registers when a command ends (R58 to R60, R603). -/
def recordStatus (s : State) (header : Word) (code : Nat) : State :=
  { s with
    status := BitVec.ofNat 64 code
    sticky := stickyAfter s.sticky code
    errcmd := errcmdAfter s.errcmd header code }

end Sys2Proof.Machine
end

