-- ==== Sys2Proof/Machine/Ports.lean ====
section
/-! DEFINITION. The external ports with the constraints the spec puts on them (R13 to R22). Each is
the raw parameter confined to its contract, so every implementation the spec admits is one of these
and no other is (DEDUCED, notes/assumptions/3.md). -/

namespace Sys2Proof.Machine

/-- Whether an object of `n` elements fits, `n <= MAX_ELEMS` (R8). The first test is implied by the
second, since `MAX_ELEMS >= 2^16`; it lets a small count be decided for every implementation. -/
def fitsElems (P : Params) (n : Nat) : Bool :=
  n ≤ Config.elemsFloor || n ≤ P.maxElems

/-- Whether a Packer of `n` bits fits, `n <= 8 * MAX_ELEMS` (R8). -/
def fitsBits (P : Params) (n : Nat) : Bool :=
  n ≤ 8 * Config.elemsFloor || n ≤ 8 * P.maxElems

/-- `zeros(n)` (R29). -/
def zeros (P : Params) (n : Nat) : List Number := List.replicate n (P.num.ofInt 0)

/-- `xs` at exactly `n` elements: cut, or filled up with `v`. -/
def fitTo {α : Type} (n : Nat) (v : α) (xs : List α) : List α :=
  xs.take n ++ List.replicate (n - xs.length) v

/-- `hop(N)`, the draw with number `k`, in `[0, N)` (R13). -/
def hop (P : Params) (k n : Nat) : Nat := P.hopRaw k n % n

/-- `synth(len, rate, freqs)`, of length `len` (R15, U14). -/
def synth (P : Params) (len rate : Nat) (freqs : List Number) : List Number :=
  fitTo len (P.num.ofInt 0) (P.synthRaw len rate freqs)

/-- The Nyquist bound of R16 and R17: `stop <= rateArg / 2`, in the form "`stop > rateArg / 2` does
not hold". -/
def belowNyquist (N : NumOps) (stop rateArg : Number) : Bool :=
  !N.gt stop (N.div rateArg (N.ofInt 2))

/-- `designBP` (R16): `none` whenever `stop1 < pass1 < pass2 < stop2` fails or `stop2 > rateArg / 2`,
and possibly for other arguments. -/
def designBP (P : Params) (q : BandpassArgs) : Option Filter :=
  if P.num.lt q.stop1 q.pass1 && P.num.lt q.pass1 q.pass2 && P.num.lt q.pass2 q.stop2
      && belowNyquist P.num q.stop2 q.rateArg then P.designBPRaw q else none

/-- `designLP` (R17): `none` whenever `pass < stop` fails or `stop > rateArg / 2`, and possibly for
other arguments. -/
def designLP (P : Params) (q : LowpassArgs) : Option Filter :=
  if P.num.lt q.pass q.stop && belowNyquist P.num q.stop q.rateArg then P.designLPRaw q else none

/-- `rsEncode(n, k, m)`, of length `n` (R22). -/
def rsEncode (P : Params) (n k : Nat) (m : List Byte) : List Byte :=
  fitTo n 0 (P.rsEncodeRaw n k m)

/-- What the Reed-Solomon decoder is given of a block: an erased position in place of the byte received
there, which is not passed (R22, notes/assumptions/12.md). -/
def withErasures (c : List Byte) (erased : List Nat) : List (Option Byte) :=
  c.mapIdx fun p x => if p ∈ erased then none else some x

/-- `rsDecode(n, k, c, E)`: `none` is an uncorrectable block, else a message of length `k` (R22). -/
def rsDecode (P : Params) (n k : Nat) (c : List Byte) (erased : List Nat) : Option (List Byte) :=
  (P.rsDecodeRaw n k (withErasures c erased)).map (fitTo k 0)

end Sys2Proof.Machine
end

