-- ==== Sys2Proof/Machine/Ops.lean ====
section
/-! DEFINITION. The shared operations over registers and object memory, and how a command ends: the one
operation that takes a failing status (R604, in place of a trap, R611) and the one that keeps a
command's writes (R605). There is no return from a trap (R612). -/

namespace Sys2Proof.Machine

/-! ### Object memory (R63, R100) -/

/-- What handle `h` holds; an unlisted handle is `EMPTY` (R63). -/
def slotGet : Slots → Nat → Option Obj
  | [], _ => none
  | (k, o) :: rest, h => if k = h then some o else slotGet rest h

/-- `OBJ[h] <- o`, keeping the handles strictly rising. -/
def slotPut : Slots → Nat → Obj → Slots
  | [], h, o => [(h, o)]
  | (k, x) :: rest, h, o =>
    if h < k then (h, o) :: (k, x) :: rest
    else if h = k then (h, o) :: rest
    else (k, x) :: slotPut rest h o

/-- `OBJ[h] <- EMPTY`: an `EMPTY` slot is not listed. -/
def slotErase : Slots → Nat → Slots
  | [], _ => []
  | (k, x) :: rest, h => if k = h then slotErase rest h else (k, x) :: slotErase rest h

/-- The handles rise strictly above `lo` and are at most 255. -/
def slotsRise : Nat → Slots → Bool
  | _, [] => true
  | lo, (k, _) :: rest => lo < k && k ≤ 255 && slotsRise k rest

/-- The canonical form of the object memory: handles strictly rising, in 1 to 255; slot 0 is always
`EMPTY` (R63). -/
def slotsWf (m : Slots) : Bool := slotsRise 0 m

/-- `OBJ[h]` (R30). -/
def State.obj (s : State) (h : Handle) : Option Obj := slotGet s.slots h.toNat

/-- `OBJ[h] <- o` (R30). -/
def State.putObj (s : State) (h : Handle) (o : Obj) : State :=
  { s with slots := slotPut s.slots h.toNat o }

/-- `OBJ[h] <- EMPTY` (R211). -/
def State.freeObj (s : State) (h : Handle) : State :=
  { s with slots := slotErase s.slots h.toNat }

/-! ### Registers (R53 to R57, R136) -/

/-- `I[r]`. -/
def State.getI (s : State) (r : IReg) : Bits64 := s.iregs[r]

/-- `I[r] <- v`. -/
def State.setI (s : State) (r : IReg) (v : Bits64) : State :=
  { s with iregs := s.iregs.set r v }

/-- `F[r]`. -/
def State.getF (s : State) (r : FReg) : Number := s.fregs[r]

/-- `F[r] <- v`. -/
def State.setF (s : State) (r : FReg) (v : Number) : State :=
  { s with fregs := s.fregs.set r v }

/-- `R[r]`. -/
def State.getR (s : State) (r : RReg) : Bits64 := s.rregs[r]

/-- `R[r] <- v`. -/
def State.setR (s : State) (r : RReg) (v : Bits64) : State :=
  { s with rregs := s.rregs.set r v }

/-- `RF[r]`. -/
def State.getRF (s : State) (r : RReg) : Number := s.rfregs[r]

/-- `RF[r] <- v`. -/
def State.setRF (s : State) (r : RReg) (v : Number) : State :=
  { s with rfregs := s.rfregs.set r v }

/-- `R[r] <- n` for a count; a register holds it modulo `2^64` (as R266 says of `rd`; DEDUCED,
notes/assumptions/7.md). -/
def State.setRNat (s : State) (r : RReg) (n : Nat) : State := s.setR r (BitVec.ofNat 64 n)

/-- `R[r] <- v` in two's complement (R476, R500). -/
def State.setRInt (s : State) (r : RReg) (v : Int) : State := s.setR r (BitVec.ofInt 64 v)

/-- What a configuration register holds: an `Int` register's 64 bits or a `Num` (R57). -/
inductive CfgVal where
  | int (v : Bits64)
  | num (x : Number)
deriving DecidableEq, Repr

/-- `CFG[c]` (R57). -/
def Cfg.get (g : Cfg) : CfgReg → CfgVal
  | .bps => .int g.bps
  | .srate => .int g.srate
  | .sps => .int g.sps
  | .expf => .int g.expf
  | .sepi => .int g.sepi
  | .bwdiv => .int g.bwdiv
  | .dsps => .int g.dsps
  | .carrier => .num g.carrier
  | .fmin => .num g.fmin
  | .fmax => .num g.fmax
  | .gthresh => .num g.gthresh

/-- `CFG[c] <- v` for an `Int` register; `none` where `c` is a `Num` register (R150). -/
def Cfg.setInt? (g : Cfg) (c : CfgReg) (v : Bits64) : Option Cfg :=
  match c with
  | .bps => some { g with bps := v }
  | .srate => some { g with srate := v }
  | .sps => some { g with sps := v }
  | .expf => some { g with expf := v }
  | .sepi => some { g with sepi := v }
  | .bwdiv => some { g with bwdiv := v }
  | .dsps => some { g with dsps := v }
  | .carrier | .fmin | .fmax | .gthresh => none

/-- `CFG[c] <- x` for a `Num` register; `none` where `c` is an `Int` register (R150). -/
def Cfg.setNum? (g : Cfg) (c : CfgReg) (x : Number) : Option Cfg :=
  match c with
  | .carrier => some { g with carrier := x }
  | .fmin => some { g with fmin := x }
  | .fmax => some { g with fmax := x }
  | .gthresh => some { g with gthresh := x }
  | .bps | .srate | .sps | .expf | .sepi | .bwdiv | .dsps => none

/-! ### Reset (R700, R702) -/

/-- The block's state becomes `ResetState` (R700). What is not block state stays: the host's pending
operations and replies, and the draws taken, which a reset neither restarts nor replays. -/
def State.resetBlock (P : Params) (s : State) : State :=
  { State.resetWith P with
    hopDraws := s.hopDraws
    pending := s.pending
    replies := s.replies }

/-! ### How a command ends (R31, R604, R605) -/

/-- What a command's rule comes to: it raises a failing status, or it completes with a non-failing
status and the state its writes made (R31). -/
abbrev Result := Except Failure (Completion × State)

/-- Go on if the condition holds, else raise. -/
def require (c : Bool) (e : Failure) : Except Failure Unit :=
  if c then .ok () else .error e

/-- `complete OK` (R31). -/
def done (s : State) : Result := .ok (.ok, s)

/-- Taking a failing status (R604): every write of the command is undone, and only `STATUS`, `STICKY`
and `ERRCMD` of the state before it change. Nothing else is saved and control stays where it is
(R611). -/
def raiseFailure (header : Word) (s : State) (e : Failure) : State := recordStatus s header e.code

/-- Ending with a non-failing status (R605): the command's writes are kept. -/
def completeWith (header : Word) (s' : State) (c : Completion) : State := recordStatus s' header c.code

/-- The state after a command whose header word is `header`, begun in `s` (R31). -/
def endCommand (header : Word) (s : State) : Result → State
  | .ok (c, s') => completeWith header s' c
  | .error e => raiseFailure header s e

/-- Every command ends, and the block goes on (R600, R611). -/
def commit (i : Instr) (s : State) (r : Result) : Host.Outcome State Fault Refusal :=
  .next (endCommand (headerWord i) s r)

/-- Raises `CAPACITY` unless an object of `n` elements fits (R200, R601). -/
def requireElems (P : Params) (n : Nat) : Except Failure Unit := require (fitsElems P n) .capacity

/-- Raises `CAPACITY` unless a Packer of `n` bits fits (R200, R601). -/
def requireBits (P : Params) (n : Nat) : Except Failure Unit := require (fitsBits P n) .capacity

end Sys2Proof.Machine
end

