-- ==== Sys2Proof/Machine/Operands.lean ====
section
/-! DEFINITION. Every operand form of the commands: the handle operand classes of R200 and R602
(existing, fresh, optional), the views of an object by kind (R70), element accesses (R100, R110), and
the source of a Stream or Tracker (R268, R303). -/

namespace Sys2Proof.Machine

/-! ### Channels -/

/-- The channels as a list, in channel order. -/
def Bank.toList {α : Type} (b : Bank α) : List α := b.first :: b.rest

/-- The number `N` of channels. -/
def Bank.count {α : Type} (b : Bank α) : Nat := b.rest.length + 1

/-- The same channels, each changed alone. -/
def Bank.map {α β : Type} (f : α → β) (b : Bank α) : Bank β := ⟨f b.first, b.rest.map f⟩

/-- The channels as a bank; `none` for the empty list. -/
def Bank.ofList? {α : Type} : List α → Option (Bank α)
  | [] => none
  | x :: xs => some ⟨x, xs⟩

/-- The least value of `f` over the channels (R429, R430, R440). -/
def Bank.least {α : Type} (f : α → Nat) (b : Bank α) : Nat :=
  b.rest.foldl (fun m x => min m (f x)) (f b.first)

/-- The greatest value of `f` over the channels (R372). -/
def Bank.greatest {α : Type} (f : α → Nat) (b : Bank α) : Nat :=
  b.rest.foldl (fun m x => max m (f x)) (f b.first)

/-! ### Views of an object by kind (R70) -/

/-- The kind of an object (R70). -/
def Obj.kind : Obj → Kind
  | .bytes _ => .bytes
  | .reals _ => .reals
  | .symbols _ => .symbols
  | .indices _ => .indices
  | .mask _ => .mask
  | .chanSyms _ => .chanSyms
  | .packer _ => .packer
  | .stream _ => .stream
  | .tracker _ => .tracker
  | .codec _ => .codec
  | .mod _ => .mod
  | .dem _ => .dem

/-- The `BYTES` list. -/
def Obj.asBytes : Obj → Option (List Byte)
  | .bytes xs => some xs
  | .reals _ | .symbols _ | .indices _ | .mask _ | .chanSyms _ | .packer _ | .stream _ | .tracker _
  | .codec _ | .mod _ | .dem _ => none

/-- The `REALS` list. -/
def Obj.asReals : Obj → Option (List Number)
  | .reals xs => some xs
  | .bytes _ | .symbols _ | .indices _ | .mask _ | .chanSyms _ | .packer _ | .stream _ | .tracker _
  | .codec _ | .mod _ | .dem _ => none

/-- The `SYMBOLS` list. -/
def Obj.asSymbols : Obj → Option (List Byte)
  | .symbols xs => some xs
  | .bytes _ | .reals _ | .indices _ | .mask _ | .chanSyms _ | .packer _ | .stream _ | .tracker _
  | .codec _ | .mod _ | .dem _ => none

/-- The `INDICES` list. -/
def Obj.asIndices : Obj → Option (List Bits64)
  | .indices xs => some xs
  | .bytes _ | .reals _ | .symbols _ | .mask _ | .chanSyms _ | .packer _ | .stream _ | .tracker _
  | .codec _ | .mod _ | .dem _ => none

/-- The `MASK` list. -/
def Obj.asMask : Obj → Option (List Bool)
  | .mask xs => some xs
  | .bytes _ | .reals _ | .symbols _ | .indices _ | .chanSyms _ | .packer _ | .stream _ | .tracker _
  | .codec _ | .mod _ | .dem _ => none

/-- The channels of a `CHANSYMS`. -/
def Obj.asChanSyms : Obj → Option (Bank (List Byte))
  | .chanSyms chs => some chs
  | .bytes _ | .reals _ | .symbols _ | .indices _ | .mask _ | .packer _ | .stream _ | .tracker _
  | .codec _ | .mod _ | .dem _ => none

/-- The bits of a `PACKER`. -/
def Obj.asPacker : Obj → Option (List Bool)
  | .packer bits => some bits
  | .bytes _ | .reals _ | .symbols _ | .indices _ | .mask _ | .chanSyms _ | .stream _ | .tracker _
  | .codec _ | .mod _ | .dem _ => none

/-- A `STREAM`. -/
def Obj.asStream : Obj → Option Stream
  | .stream st => some st
  | .bytes _ | .reals _ | .symbols _ | .indices _ | .mask _ | .chanSyms _ | .packer _ | .tracker _
  | .codec _ | .mod _ | .dem _ => none

/-- A `TRACKER`. -/
def Obj.asTracker : Obj → Option Tracker
  | .tracker tr => some tr
  | .bytes _ | .reals _ | .symbols _ | .indices _ | .mask _ | .chanSyms _ | .packer _ | .stream _
  | .codec _ | .mod _ | .dem _ => none

/-- A `CODEC`. -/
def Obj.asCodec : Obj → Option Codec
  | .codec c => some c
  | .bytes _ | .reals _ | .symbols _ | .indices _ | .mask _ | .chanSyms _ | .packer _ | .stream _
  | .tracker _ | .mod _ | .dem _ => none

/-- A `MOD`. -/
def Obj.asMod : Obj → Option Modulator
  | .mod m => some m
  | .bytes _ | .reals _ | .symbols _ | .indices _ | .mask _ | .chanSyms _ | .packer _ | .stream _
  | .tracker _ | .codec _ | .dem _ => none

/-- A `DEM`. -/
def Obj.asDem : Obj → Option Demodulator
  | .dem d => some d
  | .bytes _ | .reals _ | .symbols _ | .indices _ | .mask _ | .chanSyms _ | .packer _ | .stream _
  | .tracker _ | .codec _ | .mod _ => none

/-- Any object is accepted. -/
def Obj.asAny (o : Obj) : Option Obj := some o

/-- A list kind, `BYTES`, `REALS`, `SYMBOLS`, `INDICES` or `MASK` (R140). -/
def Obj.asList (o : Obj) : Option Obj := if o.kind.isList then some o else none

/-- A list kind with integer elements: `BYTES`, `SYMBOLS`, `INDICES` or `MASK` (R215, R217). -/
def Obj.asIntList (o : Obj) : Option Obj :=
  if o.kind.isList && o.kind ≠ .reals then some o else none

/-! ### Handle operands (R200, R602) -/

/-- An existing object of a kind the command accepts: handle 0 or an `EMPTY` slot raises
`NULL_BUFFER`, an object of another kind `WRONG_KIND`. -/
def existing {α : Type} (s : State) (h : Handle) (view : Obj → Option α) : Except Failure α :=
  if h = 0 then .error .nullBuffer
  else
    match s.obj h with
    | none => .error .nullBuffer
    | some o =>
      match view o with
      | none => .error .wrongKind
      | some v => .ok v

/-- A fresh destination: handle 0 raises `NULL_BUFFER`, a slot that is not `EMPTY` `HANDLE_BUSY`. -/
def fresh (s : State) (h : Handle) : Except Failure Unit :=
  if h = 0 then .error .nullBuffer
  else
    match s.obj h with
    | none => .ok ()
    | some _ => .error .handleBusy

/-- An optional operand: 0 is "absent" (R135), else an existing object. -/
def optional {α : Type} (s : State) (h : Handle) (view : Obj → Option α) :
    Except Failure (Option α) :=
  if h = 0 then .ok none else (existing s h view).map some

/-- An optional fresh destination: 0 is "absent" (R380). -/
def optionalFresh (s : State) (h : Handle) : Except Failure Unit :=
  if h = 0 then .ok () else fresh s h

/-! ### Elements (R100, R110) -/

/-- The number of elements a list kind holds. -/
def Obj.listLength : Obj → Nat
  | .bytes xs => xs.length
  | .reals xs => xs.length
  | .symbols xs => xs.length
  | .indices xs => xs.length
  | .mask xs => xs.length
  | .chanSyms _ | .packer _ | .stream _ | .tracker _ | .codec _ | .mod _ | .dem _ => 0

/-- The object with one element appended, converted as R110 says; `none` where the value does not fit
the element (or the kind has no integer elements, which `asIntList` has ruled out). -/
def Obj.pushInt? (o : Obj) (v : Bits64) : Option Obj :=
  match o with
  | .bytes xs => if v.toNat ≤ 255 then some (.bytes (xs ++ [v.setWidth 8])) else none
  | .symbols xs => if v.toNat ≤ 255 then some (.symbols (xs ++ [v.setWidth 8])) else none
  | .indices xs => some (.indices (xs ++ [v]))
  | .mask xs => if v.toNat ≤ 1 then some (.mask (xs ++ [v.toNat == 1])) else none
  | .reals _ | .chanSyms _ | .packer _ | .stream _ | .tracker _ | .codec _ | .mod _ | .dem _ => none

/-- `MemRead((h, j), 1)` of an integer element, widened to 64 bits as R110 says; `none` where there is
no element `j`. -/
def Obj.readInt? (o : Obj) (j : Nat) : Option Bits64 :=
  match o with
  | .bytes xs => xs[j]?.map (·.setWidth 64)
  | .symbols xs => xs[j]?.map (·.setWidth 64)
  | .indices xs => xs[j]?
  | .mask xs => xs[j]?.map fun b => if b then 1 else 0
  | .reals _ | .chanSyms _ | .packer _ | .stream _ | .tracker _ | .codec _ | .mod _ | .dem _ => none

/-- The same list kind from element `n` on, `list[n:]` (R29, R219). -/
def Obj.dropList (o : Obj) (n : Nat) : Obj :=
  match o with
  | .bytes xs => .bytes (xs.drop n)
  | .reals xs => .reals (xs.drop n)
  | .symbols xs => .symbols (xs.drop n)
  | .indices xs => .indices (xs.drop n)
  | .mask xs => .mask (xs.drop n)
  | .chanSyms _ | .packer _ | .stream _ | .tracker _ | .codec _ | .mod _ | .dem _ => o

/-- Two lists of one kind joined; `none` where the kinds differ (R220). -/
def Obj.concat? (o p : Obj) : Option Obj :=
  match o, p with
  | .bytes xs, .bytes ys => some (.bytes (xs ++ ys))
  | .reals xs, .reals ys => some (.reals (xs ++ ys))
  | .symbols xs, .symbols ys => some (.symbols (xs ++ ys))
  | .indices xs, .indices ys => some (.indices (xs ++ ys))
  | .mask xs, .mask ys => some (.mask (xs ++ ys))
  | _, _ => none

/-- The empty list of a kind BUF_NEW creates (R210); `none` for the other kinds. -/
def Obj.emptyOf? : Kind → Option Obj
  | .bytes => some (.bytes [])
  | .reals => some (.reals [])
  | .symbols => some (.symbols [])
  | .indices => some (.indices [])
  | .mask => some (.mask [])
  | .chanSyms | .packer | .stream | .tracker | .codec | .mod | .dem => none

/-! ### The source of a Stream or Tracker (R261, R268, R303) -/

/-- A source object: a `BYTES` list or a `PACKER`'s bits. -/
inductive Source where
  | bytes (xs : List Byte)
  | packer (bits : List Bool)
deriving DecidableEq, Repr

/-- The view of an object as a source: `BYTES` or `PACKER` (R260, R300). -/
def Obj.asSource : Obj → Option Source
  | .bytes xs => some (.bytes xs)
  | .packer bits => some (.packer bits)
  | .reals _ | .symbols _ | .indices _ | .mask _ | .chanSyms _ | .stream _ | .tracker _
  | .codec _ | .mod _ | .dem _ => none

/-- Source resolution (R268): an `EMPTY` slot raises `NULL_BUFFER`, an object that is no source
`WRONG_KIND`. The object is read at the time of the command (R261). -/
def resolveSource (s : State) (src : Handle) : Except Failure Source := existing s src Obj.asSource

end Sys2Proof.Machine
end

