-- ==== Sys2Proof/Machine/BitIO.lean ====
section
/-! DEFINITION. BitIO packer and stream commands (41_bitio.md R250 to R270). Bit lists are written
first bit first; bit order is most significant first everywhere (R102). -/

namespace Sys2Proof.Machine

/-! ### Bit helpers (R254) -/

/-- `bits(b)`: the bits of a byte, MSB-first. -/
def byteBits (b : Byte) : List Bool :=
  [b.getLsbD 7, b.getLsbD 6, b.getLsbD 5, b.getLsbD 4, b.getLsbD 3, b.getLsbD 2, b.getLsbD 1,
    b.getLsbD 0]

/-- `bytesToBits`. -/
def bytesToBits (bs : List Byte) : List Bool := bs.flatMap byteBits

/-- `natOfBits`: the first bit is the most significant. -/
def natOfBits (xs : List Bool) : Nat := xs.foldl (fun acc x => 2 * acc + x.toNat) 0

/-- `byteOf`: eight bits, the first being bit 7. -/
def byteOf (xs : List Bool) : Byte := BitVec.ofNat 8 (natOfBits xs)

/-- The bytes of the next `k` groups of eight bits, a final partial group padded with `false`. -/
def packGroups : Nat → List Bool → List Byte
  | 0, _ => []
  | k + 1, xs => byteOf (fitTo 8 false (xs.take 8)) :: packGroups k (xs.drop 8)

/-- `packBytes`: the byte-aligned form, `ceil(|xs| / 8)` bytes. -/
def packBytes (xs : List Bool) : List Byte := packGroups ((xs.length + 7) / 8) xs

/-- `fieldBits(v, w)`: the `w` low bits of `v`, MSB-first. -/
def fieldBits (v w : Nat) : List Bool := (List.range w).map fun j => v.testBit (w - 1 - j)

/-- The field PK_WRBITS appends (R251): above 64 bits, leading zeros and then the whole register. -/
def writeField (v w : Nat) : List Bool :=
  if w ≤ 64 then fieldBits v w else List.replicate (w - 64) false ++ fieldBits v 64

/-- `sext_n(v)` of an `n`-bit value (R28). -/
def signExtendNat (n v : Nat) : Bits64 := (BitVec.ofNat n v).signExtend 64

/-! ### Packer -/

/-- PK_NEW (R250). -/
def pkNewRule (a : Handle) (s : State) : Result := do
  fresh s a
  done (s.putObj a (.packer []))

/-- PK_NEW. -/
def execPkNew (a : Handle) (s : State) : Host.Outcome State Fault Refusal :=
  commit (.pkNew a) s (pkNewRule a s)

/-- PK_WRBITS (R251): the width is read as `s64`, the value as `u64`. -/
def pkWrbitsRule (P : Params) (a : Handle) (b c : IReg) (s : State) : Result := do
  let bits ← existing s a Obj.asPacker
  let width := (s.getI c).toInt
  let v := (s.getI b).toNat
  require (0 < width) .invalidWidth
  let w := width.toNat
  require (64 ≤ w || v < 2 ^ w) .invalidValue
  requireBits P (bits.length + w)
  done (s.putObj a (.packer (bits ++ writeField v w)))

/-- PK_WRBITS. -/
def execPkWrbits (a : Handle) (b c : IReg) (s : State) : Host.Outcome State Fault Refusal :=
  commit (.pkWrbits a b c) s (pkWrbitsRule Config.params a b c s)

/-- PK_WRBYTES (R252). -/
def pkWrbytesRule (P : Params) (a b : Handle) (s : State) : Result := do
  let bits ← existing s a Obj.asPacker
  let bs ← existing s b Obj.asBytes
  let xs := bytesToBits bs
  requireBits P (bits.length + xs.length)
  done (s.putObj a (.packer (bits ++ xs)))

/-- PK_WRBYTES. -/
def execPkWrbytes (a b : Handle) (s : State) : Host.Outcome State Fault Refusal :=
  commit (.pkWrbytes a b) s (pkWrbytesRule Config.params a b s)

/-- PK_FLUSH (R253): the Packer is not changed; the capacity check is R200's. -/
def pkFlushRule (P : Params) (a b : Handle) (s : State) : Result := do
  fresh s a
  let bits ← existing s b Obj.asPacker
  let out := packBytes bits
  requireElems P out.length
  done (s.putObj a (.bytes out))

/-- PK_FLUSH. -/
def execPkFlush (a b : Handle) (s : State) : Host.Outcome State Fault Refusal :=
  commit (.pkFlush a b) s (pkFlushRule Config.params a b s)

/-! ### Stream -/

/-- `srcBits` (R261): the source's bits at the time of the command. -/
def Source.bits : Source → List Bool
  | .bytes xs => bytesToBits xs
  | .packer bits => bits

/-- The snapshot ST_PEEK takes (R266). -/
def Source.snapshot : Source → List Byte
  | .bytes xs => xs
  | .packer bits => packBytes bits

/-- What a Stream read gives (R262): the count, the bits, the cursor after it. -/
structure StreamRead where
  count : Nat
  bits : List Bool
  rd : Nat
deriving DecidableEq, Repr

/-- The bits of a circular read (R262): `n` bits from position `rd`, wrapping modulo the length. -/
def circularBits (src : List Bool) (rd n : Nat) : List Bool :=
  (List.range n).map fun j => src.getD ((rd + j) % src.length) false

/-- `readStream(s, n)` (R262). -/
def readStream (st : Stream) (src : List Bool) (n : Nat) : Except Failure StreamRead :=
  if st.circular then
    if src.length = 0 then .error .emptyCircular
    else .ok ⟨n, circularBits src st.rd n, st.rd + n⟩
  else
    let k := min n (src.length - st.rd)
    .ok ⟨k, (src.drop st.rd).take k, st.rd + k⟩

/-- `SHORT_READ` when fewer bits than asked were read, else `OK` (R263). -/
def readCompletion (k n : Nat) : Completion := if k < n then .shortRead else .ok

/-- The `n`-bit value of an integer read: missing low bits are zero (R264). -/
def readValue (r : StreamRead) (n : Nat) : Nat := natOfBits (fitTo n false r.bits)

/-- ST_NEW (R260): the source is not copied. -/
def stNewRule (a b : Handle) (circular : Bool) (s : State) : Result := do
  fresh s a
  let _ ← existing s b Obj.asSource
  done (s.putObj a (.stream ⟨b, circular, 0⟩))

/-- ST_NEW. -/
def execStNew (a b : Handle) (circular : Bool) (s : State) : Host.Outcome State Fault Refusal :=
  commit (.stNew a b circular) s (stNewRule a b circular s)

/-- ST_RDBITS (R263). -/
def stRdbitsRule (P : Params) (a b : Handle) (c : IReg) (s : State) : Result := do
  let st ← existing s a Obj.asStream
  fresh s b
  let src ← resolveSource s st.src
  let n := (s.getI c).toInt
  require (0 < n) .invalidWidth
  let r ← readStream st src.bits n.toNat
  requireElems P ((r.count + 7) / 8)
  let s' := (s.putObj b (.bytes (packBytes r.bits))).putObj a (.stream { st with rd := r.rd })
  return (readCompletion r.count n.toNat, s'.setRNat 0 r.count)

/-- ST_RDBITS. -/
def execStRdbits (a b : Handle) (c : IReg) (s : State) : Host.Outcome State Fault Refusal :=
  commit (.stRdbits a b c) s (stRdbitsRule Config.params a b c s)

/-- The shared rule of ST_RDU and ST_RDS (R264, R265): `extend` makes the register value of the
`n`-bit value read. -/
def readIntegerRule (extend : Nat → Nat → Bits64) (a : Handle) (b c : IReg) (s : State) : Result := do
  let st ← existing s a Obj.asStream
  let src ← resolveSource s st.src
  let n := (s.getI c).toInt
  require (1 ≤ n && n ≤ 32) .invalidWidth
  let r ← readStream st src.bits n.toNat
  let s' := (s.setI b (extend n.toNat (readValue r n.toNat))).setRNat 0 r.count
  return (readCompletion r.count n.toNat, s'.putObj a (.stream { st with rd := r.rd }))

/-- ST_RDU (R264): zero-extended. -/
def stRduRule (a : Handle) (b c : IReg) (s : State) : Result :=
  readIntegerRule (fun _ v => BitVec.ofNat 64 v) a b c s

/-- ST_RDU. -/
def execStRdu (a : Handle) (b c : IReg) (s : State) : Host.Outcome State Fault Refusal :=
  commit (.stRdu a b c) s (stRduRule a b c s)

/-- ST_RDS (R265): sign-extended. -/
def stRdsRule (a : Handle) (b c : IReg) (s : State) : Result :=
  readIntegerRule signExtendNat a b c s

/-- ST_RDS. -/
def execStRds (a : Handle) (b c : IReg) (s : State) : Host.Outcome State Fault Refusal :=
  commit (.stRds a b c) s (stRdsRule a b c s)

/-- ST_PEEK (R266): the Stream is unchanged; the capacity check is R200's. -/
def stPeekRule (P : Params) (a b : Handle) (s : State) : Result := do
  let st ← existing s a Obj.asStream
  fresh s b
  let src ← resolveSource s st.src
  requireElems P src.snapshot.length
  done (((s.setRNat 0 st.rd).setRNat 1 src.bits.length).putObj b (.bytes src.snapshot))

/-- ST_PEEK. -/
def execStPeek (a b : Handle) (s : State) : Host.Outcome State Fault Refusal :=
  commit (.stPeek a b) s (stPeekRule Config.params a b s)

/-- ST_REMAIN (R267): `R1 = 1` flags "unbounded". -/
def stRemainRule (a : Handle) (s : State) : Result := do
  let st ← existing s a Obj.asStream
  let src ← resolveSource s st.src
  if st.circular then
    require (src.bits.length ≠ 0) .emptyCircular
    done ((s.setR 0 (BitVec.allOnes 64)).setR 1 1)
  else
    done ((s.setRNat 0 (src.bits.length - st.rd)).setR 1 0)

/-- ST_REMAIN. -/
def execStRemain (a : Handle) (s : State) : Host.Outcome State Fault Refusal :=
  commit (.stRemain a) s (stRemainRule a s)

end Sys2Proof.Machine
end

