-- ==== Sys2Proof/Machine/BlockCodec.lean ====
section
/-! DEFINITION. Block codec commands, Manchester and Reed-Solomon (43_block_codecs.md R320 to R342). -/

namespace Sys2Proof.Machine

/-! ### Manchester -/

/-- The two bits a Manchester encoder writes for one bit (R321). -/
def manchesterPair (x : Bool) : List Bool := [x, !x]

/-- `manEnc` (R321). -/
def manEnc (bs : List Byte) : List Byte := packBytes ((bytesToBits bs).flatMap manchesterPair)

/-- The decoded bits of a list of bit pairs, and the decode positions, counted from `j`, whose pair is
neither `10` nor `01`: such a pair decodes to 1 (R322). -/
def manDecBits : Nat → List Bool → List Bool × List Nat
  | j, x :: y :: rest =>
    let (ys, bad) := manDecBits (j + 1) rest
    match x, y with
    | true, false => (true :: ys, bad)
    | false, true => (false :: ys, bad)
    | true, true | false, false => (true :: ys, j :: bad)
  | _, [_] => ([], [])
  | _, [] => ([], [])

/-- `manDec` (R322): the decoded bytes and the uncorrectable decode positions. -/
def manDec (bs : List Byte) : List Byte × List Nat :=
  let (ys, bad) := manDecBits 0 (bytesToBits bs)
  (packBytes ys, bad)

/-- The mask after a Manchester decode of `n` output bytes (R341): grown to one flag per output byte,
and the flag of each bad position's byte set. -/
def markMask (mk : List Bool) (n : Nat) (bad : List Nat) : List Bool :=
  bad.foldl (fun m j => m.set (j / 8) true) (mk ++ List.replicate (n - mk.length) false)

/-! ### Reed-Solomon -/

/-- `xs[j*k : (j+1)*k]` (R29). -/
def blockAt {α : Type} (xs : List α) (k j : Nat) : List α := (xs.drop (j * k)).take k

/-- `pad(xs, k)` (R331). -/
def padBytes (k : Nat) (xs : List Byte) : List Byte := xs ++ List.replicate (k - xs.length) 0

/-- `rsEnc` (R331). -/
def rsEnc (P : Params) (n k : Nat) (bs : List Byte) : List Byte :=
  (List.range ((bs.length + k - 1) / k)).flatMap fun j => rsEncode P n k (padBytes k (blockAt bs k j))

/-- The blocks a decoder's tail adds (R335). The policy `Fault` has raised before this is used. -/
def tailBlocks (policy : TailPolicy) (n : Nat) (bs : List Byte) : List (List Byte) :=
  if bs.length % n = 0 then []
  else
    match policy with
    | .padZero => [padBytes n (bs.drop (bs.length / n * n))]
    | .drop => []
    | .fault => []

/-- The blocks a decoder reads (R332). -/
def rsBlocks (P : Params) (n : Nat) (bs : List Byte) : List (List Byte) :=
  (List.range (bs.length / n)).map (blockAt bs n) ++ tailBlocks P.rsTailPolicy n bs

/-- The erased positions of block `j`, ascending: the mask is indexed by coded byte (R332). DEDUCED, unsafe
where it is wrong: a flag at a zero-padded position of a `PadZero` tail is an erasure, as `E` of R332 and R335
say, although R332's prose and D31 ignore entries past the input (notes/assumptions/19.md). -/
def erasedAt (n : Nat) (mask : List Bool) (j : Nat) : List Nat :=
  (List.range n).filter fun p => mask.getD (j * n + p) false

/-- The message of each block, `none` where the codec reports it uncorrectable (R332). -/
def rsMessages (P : Params) (n k : Nat) (bs : List Byte) (mask : List Bool) :
    List (Option (List Byte)) :=
  (rsBlocks P n bs).mapIdx fun j c => rsDecode P n k c (erasedAt n mask j)

/-- `out` of `rsDec` (R332): an uncorrectable block is `k` zero bytes. -/
def rsOutput (k : Nat) (ms : List (Option (List Byte))) : List Byte :=
  ms.flatMap fun m => m.getD (List.replicate k 0)

/-- `unc` of `rsDec` (R332): how many blocks were uncorrectable. -/
def rsUncorrectable (ms : List (Option (List Byte))) : Nat := ms.countP Option.isNone

/-! ### Commands -/

/-- CODEC_MAN (R320). -/
def codecManRule (a : Handle) (s : State) : Result := do
  fresh s a
  done (s.putObj a (.codec ⟨.manchester, 2, 1⟩))

/-- CODEC_MAN. -/
def execCodecMan (a : Handle) (s : State) : Host.Outcome State Fault Refusal :=
  commit (.codecMan a) s (codecManRule a s)

/-- The length checks of CODEC_RS (R330). -/
def rsLengthsLegal (bl ml : Int) : Bool := 0 < bl && 0 < ml && bl % 8 = 0 && ml % 8 = 0

/-- CODEC_RS (R330): the lengths are bit counts read as `s64`. -/
def codecRsRule (P : Params) (a : Handle) (b c : IReg) (s : State) : Result := do
  fresh s a
  let bl := (s.getI b).toInt
  let ml := (s.getI c).toInt
  require (rsLengthsLegal bl ml) .configurationError
  require (P.rsAccepts (bl.toNat / 8) (ml.toNat / 8)) .constructionError
  done (s.putObj a (.codec ⟨.rs, bl.toNat, ml.toNat⟩))

/-- CODEC_RS. -/
def execCodecRs (a : Handle) (b c : IReg) (s : State) : Host.Outcome State Fault Refusal :=
  commit (.codecRs a b c) s (codecRsRule Config.params a b c s)

/-- What CODEC_ENC writes (R340). -/
def encodeBytes (P : Params) (c : Codec) (bs : List Byte) : List Byte :=
  match c.ckind with
  | .manchester => manEnc bs
  | .rs => rsEnc P (c.blockLength / 8) (c.messageLength / 8) bs

/-- CODEC_ENC (R340). -/
def codecEncRule (P : Params) (a b c : Handle) (s : State) : Result := do
  fresh s a
  let cd ← existing s b Obj.asCodec
  let bs ← existing s c Obj.asBytes
  let out := encodeBytes P cd bs
  requireElems P out.length
  done ((s.putObj a (.bytes out)).setRNat 0 out.length)

/-- CODEC_ENC. -/
def execCodecEnc (a b c : Handle) (s : State) : Host.Outcome State Fault Refusal :=
  commit (.codecEnc a b c) s (codecEncRule Config.params a b c s)

/-- What a decode comes to: its output, the count of substituted symbols or zero-filled blocks, the
number of symbols or blocks, and the mask where it is written (R341). -/
structure Decoded where
  out : List Byte
  count : Nat
  units : Nat
  mask : Option (List Bool)
deriving DecidableEq, Repr

/-- Decoding (R341): a Manchester codec writes the mask, a Reed-Solomon codec reads it. -/
def decodeBytes (P : Params) (c : Codec) (bs : List Byte) (mask : Option (List Bool)) :
    Except Failure Decoded :=
  match c.ckind with
  | .manchester =>
    let (out, bad) := manDec bs
    .ok ⟨out, bad.length, 4 * bs.length, mask.map fun mk => markMask mk out.length bad⟩
  | .rs => do
    let n := c.blockLength / 8
    let k := c.messageLength / 8
    require (bs.length % n = 0 || P.rsTailPolicy ≠ .fault) .invalidValue
    let ms := rsMessages P n k bs (mask.getD [])
    return ⟨rsOutput k ms, rsUncorrectable ms, ms.length, none⟩

/-- `OBJ[D].list <- mk`, where a decode writes the mask (R341). -/
def putMask (s : State) (d : Handle) (mask : Option (List Bool)) : State :=
  match mask with
  | some mk => s.putObj d (.mask mk)
  | none => s

/-- CODEC_DEC (R341). -/
def codecDecRule (P : Params) (a b c d : Handle) (s : State) : Result := do
  fresh s a
  let cd ← existing s b Obj.asCodec
  let bs ← existing s c Obj.asBytes
  let mk ← optional s d Obj.asMask
  let r ← decodeBytes P cd bs mk
  requireElems P r.out.length
  let s' := (((putMask s d r.mask).putObj a (.bytes r.out)).setRNat 0 r.count).setRNat 1 r.units
  return (if 0 < r.count then .decodeRecovered else .ok, s')

/-- CODEC_DEC. -/
def execCodecDec (a b c d : Handle) (s : State) : Host.Outcome State Fault Refusal :=
  commit (.codecDec a b c d) s (codecDecRule Config.params a b c d s)

/-- 0 for Manchester, 1 for Reed-Solomon (R342). -/
def CodecKind.code : CodecKind → Bits64
  | .manchester => 0
  | .rs => 1

/-- CODEC_INFO (R342). -/
def codecInfoRule (a : Handle) (s : State) : Result := do
  let c ← existing s a Obj.asCodec
  done (((s.setRNat 0 c.blockLength).setRNat 1 c.messageLength).setR 2 c.ckind.code)

/-- CODEC_INFO. -/
def execCodecInfo (a : Handle) (s : State) : Host.Outcome State Fault Refusal :=
  commit (.codecInfo a) s (codecInfoRule a s)

end Sys2Proof.Machine
end

