-- ==== Sys2Proof/Machine/Buffers.lean ====
section
/-! DEFINITION. Object and buffer commands (40_control.md R210 to R212, R215 to R221). -/

namespace Sys2Proof.Machine

/-- BUF_NEW (R210); a kind other than codes 1 to 5 is illegal (R132). -/
def bufNewRule (a : Handle) (k : Kind) (s : State) : Result :=
  match Obj.emptyOf? k with
  | none => .error .illegalCommand
  | some o => do
    fresh s a
    done (s.putObj a o)

/-- BUF_NEW. -/
def execBufNew (a : Handle) (k : Kind) (s : State) : Host.Outcome State Fault Refusal :=
  commit (.bufNew a k) s (bufNewRule a k s)

/-- BUF_FREE (R211). -/
def bufFreeRule (a : Handle) (s : State) : Result := do
  let _ ← existing s a Obj.asAny
  done (s.freeObj a)

/-- BUF_FREE. -/
def execBufFree (a : Handle) (s : State) : Host.Outcome State Fault Refusal :=
  commit (.bufFree a) s (bufFreeRule a s)

/-- The number of channels of a modulator: `N`, 1 for BFSK (R212). -/
def Modulator.channels (m : Modulator) : Nat :=
  match m.body with
  | .bfsk _ => 1
  | .ofdm _ _ lanes => lanes.count
  | .fhss _ _ lanes => lanes.count

/-- The number of channels of a demodulator: `N`, 1 for BFSK (R212). -/
def Demodulator.channels (d : Demodulator) : Nat :=
  match d.body with
  | .bfsk _ => 1
  | .ofdm _ _ chans => chans.count
  | .fhss _ _ chans _ => chans.count

/-- What BUF_LEN reports in `R0` (R212). -/
def Obj.reportedLength (o : Obj) : Nat :=
  match o with
  | .bytes xs => xs.length
  | .reals xs => xs.length
  | .symbols xs => xs.length
  | .indices xs => xs.length
  | .mask xs => xs.length
  | .chanSyms chs => chs.count
  | .packer bits => bits.length
  | .stream st => st.rd
  | .tracker tr => tr.rd
  | .codec c => c.blockLength
  | .mod m => m.channels
  | .dem d => d.channels

/-- BUF_LEN (R212). -/
def bufLenRule (a : Handle) (s : State) : Result := do
  let o ← existing s a Obj.asAny
  done ((s.setRNat 0 o.reportedLength).setR 1 (o.kind.code.setWidth 64))

/-- BUF_LEN. -/
def execBufLen (a : Handle) (s : State) : Host.Outcome State Fault Refusal :=
  commit (.bufLen a) s (bufLenRule a s)

/-- BUF_PUSHI (R215). -/
def bufPushiRule (P : Params) (a : Handle) (b : IReg) (s : State) : Result := do
  let o ← existing s a Obj.asIntList
  match o.pushInt? (s.getI b) with
  | none => .error .invalidValue
  | some o' =>
    requireElems P o'.listLength
    done (s.putObj a o')

/-- BUF_PUSHI. -/
def execBufPushi (a : Handle) (b : IReg) (s : State) : Host.Outcome State Fault Refusal :=
  commit (.bufPushi a b) s (bufPushiRule Config.params a b s)

/-- BUF_PUSHF (R216). -/
def bufPushfRule (P : Params) (a : Handle) (b : FReg) (s : State) : Result := do
  let xs ← existing s a Obj.asReals
  requireElems P (xs.length + 1)
  done (s.putObj a (.reals (xs ++ [s.getF b])))

/-- BUF_PUSHF. -/
def execBufPushf (a : Handle) (b : FReg) (s : State) : Host.Outcome State Fault Refusal :=
  commit (.bufPushf a b) s (bufPushfRule Config.params a b s)

/-- BUF_GETI (R217); the index is read as `u64` (R132). -/
def bufGetiRule (a : Handle) (b : IReg) (s : State) : Result := do
  let o ← existing s a Obj.asIntList
  match o.readInt? (s.getI b).toNat with
  | none => .error .invalidValue
  | some v => done (s.setR 0 v)

/-- BUF_GETI. -/
def execBufGeti (a : Handle) (b : IReg) (s : State) : Host.Outcome State Fault Refusal :=
  commit (.bufGeti a b) s (bufGetiRule a b s)

/-- BUF_GETF (R218). -/
def bufGetfRule (a : Handle) (b : IReg) (s : State) : Result := do
  let xs ← existing s a Obj.asReals
  match xs[(s.getI b).toNat]? with
  | none => .error .invalidValue
  | some x => done (s.setRF 0 x)

/-- BUF_GETF. -/
def execBufGetf (a : Handle) (b : IReg) (s : State) : Host.Outcome State Fault Refusal :=
  commit (.bufGetf a b) s (bufGetfRule a b s)

/-- BUF_SLICE (R219); the start is read as `s64` (R132), and the capacity check is R200's. -/
def bufSliceRule (P : Params) (a b : Handle) (c : IReg) (s : State) : Result := do
  fresh s a
  let o ← existing s b Obj.asList
  let start := (s.getI c).toInt
  require (0 ≤ start) .invalidValue
  let o' := o.dropList start.toNat
  requireElems P o'.listLength
  done (s.putObj a o')

/-- BUF_SLICE. -/
def execBufSlice (a b : Handle) (c : IReg) (s : State) : Host.Outcome State Fault Refusal :=
  commit (.bufSlice a b c) s (bufSliceRule Config.params a b c s)

/-- BUF_CONCAT (R220): both lists are read before the write, so `A = B` doubles the list. -/
def bufConcatRule (P : Params) (a b : Handle) (s : State) : Result := do
  let o ← existing s a Obj.asList
  let o' ← existing s b o.concat?
  requireElems P o'.listLength
  done (s.putObj a o')

/-- BUF_CONCAT. -/
def execBufConcat (a b : Handle) (s : State) : Host.Outcome State Fault Refusal :=
  commit (.bufConcat a b) s (bufConcatRule Config.params a b s)

/-- CH_GET (R221); the channel number is read as `u64` (R132), and the capacity check is R200's. -/
def chGetRule (P : Params) (a b : Handle) (c : IReg) (s : State) : Result := do
  fresh s a
  let chs ← existing s b Obj.asChanSyms
  match chs.toList[(s.getI c).toNat]? with
  | none => .error .invalidValue
  | some xs =>
    requireElems P xs.length
    done (s.putObj a (.symbols xs))

/-- CH_GET. -/
def execChGet (a b : Handle) (c : IReg) (s : State) : Host.Outcome State Fault Refusal :=
  commit (.chGet a b c) s (chGetRule Config.params a b c s)

end Sys2Proof.Machine
end

