-- ==== Sys2Proof/Machine/Carriers.lean ====
section
/-! DEFINITION. Carrier tiling, the tone allocator (44_modulators.md R360, R361). -/

namespace Sys2Proof.Machine

/-- The tiling loop from centre `c` (R361), with room for `room` more centres: the next centre is one
`Num` addition away, and a centre beyond `MAX_ELEMS` raises `CAPACITY`. -/
def tileFrom (N : NumOps) (half mx bw : Number) : Nat → Number → Except Failure (List Number)
  | 0, c => if N.le (N.add c half) mx then .error .capacity else .ok []
  | room + 1, c =>
    if N.le (N.add c half) mx then
      (tileFrom N half mx bw room (N.add c bw)).map (c :: ·)
    else .ok []

/-- `tile(mn, mx, bw)` (R361). -/
def tile (P : Params) (mn mx bw : Number) : Except Failure (List Number) :=
  let half := P.num.div bw (P.num.ofInt 2)
  tileFrom P.num half mx bw P.maxElems (P.num.add mn half)

/-- The second and third register of an `fb` block (R132); `fb` is at most 13 in a legal command. -/
def blockReg (b : FReg) (k : Nat) : FReg := Fin.ofNat 16 (b.val + k)

/-- CARRIERS (R360); a block that does not fit the file is illegal (R132, R145). -/
def carriersRule (P : Params) (a : Handle) (b : FReg) (s : State) : Result := do
  require (b.val ≤ 13) .illegalCommand
  fresh s a
  let mn := s.getF b
  let mx := s.getF (blockReg b 1)
  let bw := s.getF (blockReg b 2)
  require (P.num.isFinite mn && P.num.isFinite mx && P.num.isFinite bw) .invalidValue
  require (P.num.gt bw (P.num.ofInt 0)) .invalidValue
  let cs ← tile P mn mx bw
  done ((s.putObj a (.reals cs)).setRNat 0 cs.length)

/-- CARRIERS. -/
def execCarriers (a : Handle) (b : FReg) (s : State) : Host.Outcome State Fault Refusal :=
  commit (.carriers a b) s (carriersRule Config.params a b s)

end Sys2Proof.Machine
end

