-- ==== Sys2Proof/Machine/Control.lean ====
section
/-! DEFINITION. Register and control commands (40_control.md R201 to R209, R213, R214). A `…Rule`
definition is a command's rule for any implementation; the `exec…` beside it is the machine's. -/

namespace Sys2Proof.Machine

/-- NOP (R201). -/
def nopRule (s : State) : Result := done s

/-- NOP. -/
def execNop (s : State) : Host.Outcome State Fault Refusal := commit .nop s (nopRule s)

/-- SETI (R202): `I[A] <- imm64`. -/
def setiRule (a : IReg) (imm : Bits64) (s : State) : Result := done (s.setI a imm)

/-- SETI. -/
def execSeti (a : IReg) (imm : Bits64) (s : State) : Host.Outcome State Fault Refusal :=
  commit (.seti a imm) s (setiRule a imm s)

/-- SETF (R203): `F[A] <- ofBinary64(imm64)`. -/
def setfRule (P : Params) (a : FReg) (imm : Bits64) (s : State) : Result :=
  done (s.setF a (P.num.ofBinary64 imm))

/-- SETF. -/
def execSetf (a : FReg) (imm : Bits64) (s : State) : Host.Outcome State Fault Refusal :=
  commit (.setf a imm) s (setfRule Config.params a imm s)

/-- MOVR (R204): `I[A] <- R[B]`. -/
def movrRule (a : IReg) (b : RReg) (s : State) : Result := done (s.setI a (s.getR b))

/-- MOVR. -/
def execMovr (a : IReg) (b : RReg) (s : State) : Host.Outcome State Fault Refusal :=
  commit (.movr a b) s (movrRule a b s)

/-- ADDI (R213): the sum wraps modulo `2^64`; the immediate is sign-extended (R138). -/
def addiRule (a b : IReg) (imm : Byte) (s : State) : Result :=
  done (s.setI a (s.getI b + imm.signExtend 64))

/-- ADDI. -/
def execAddi (a b : IReg) (imm : Byte) (s : State) : Host.Outcome State Fault Refusal :=
  commit (.addi a b imm) s (addiRule a b imm s)

/-- CFG_WRI (R205): `CFG[A] <- I[B]`, any value; a `Num` register is illegal (R150). -/
def cfgWriRule (a : CfgReg) (b : IReg) (s : State) : Result :=
  match s.cfg.setInt? a (s.getI b) with
  | some g => done { s with cfg := g }
  | none => .error .illegalCommand

/-- CFG_WRI. -/
def execCfgWri (a : CfgReg) (b : IReg) (s : State) : Host.Outcome State Fault Refusal :=
  commit (.cfgWri a b) s (cfgWriRule a b s)

/-- CFG_WRF (R206): `CFG[A] <- F[B]`, any value; an `Int` register is illegal (R150). -/
def cfgWrfRule (a : CfgReg) (b : FReg) (s : State) : Result :=
  match s.cfg.setNum? a (s.getF b) with
  | some g => done { s with cfg := g }
  | none => .error .illegalCommand

/-- CFG_WRF. -/
def execCfgWrf (a : CfgReg) (b : FReg) (s : State) : Host.Outcome State Fault Refusal :=
  commit (.cfgWrf a b) s (cfgWrfRule a b s)

/-- CFG_RD (R207): an `Int` register goes to `R0`, a `Num` register to `RF0`. -/
def cfgRdRule (a : CfgReg) (s : State) : Result :=
  match s.cfg.get a with
  | .int v => done (s.setR 0 v)
  | .num x => done (s.setRF 0 x)

/-- CFG_RD. -/
def execCfgRd (a : CfgReg) (s : State) : Host.Outcome State Fault Refusal :=
  commit (.cfgRd a) s (cfgRdRule a s)

/-- CLRERR (R208): `STICKY <- 0`; `ERRCMD` is not cleared. -/
def clrerrRule (s : State) : Result := done { s with sticky := 0 }

/-- CLRERR. -/
def execClrerr (s : State) : Host.Outcome State Fault Refusal := commit .clrerr s (clrerrRule s)

/-- RESET (R209): the block's state becomes `ResetState`. -/
def resetRule (P : Params) (s : State) : Result := done (s.resetBlock P)

/-- RESET. -/
def execReset (s : State) : Host.Outcome State Fault Refusal :=
  commit .reset s (resetRule Config.params s)

/-- MOVRF (R214): `F[A] <- RF[B]`. -/
def movrfRule (a : FReg) (b : RReg) (s : State) : Result := done (s.setF a (s.getRF b))

/-- MOVRF. -/
def execMovrf (a : FReg) (b : RReg) (s : State) : Host.Outcome State Fault Refusal :=
  commit (.movrf a b) s (movrfRule a b s)

end Sys2Proof.Machine
end

