-- ==== Sys2Proof/Machine/Modulation.lean ====
section
/-! DEFINITION. Modulator commands, BFSK, OFDM and FHSS (44_modulators.md R362 to R381). -/

namespace Sys2Proof.Machine

/-! ### Construction -/

/-- The instance kind's own checks: item 3 of R363 and item 4 of R410 for BFSK, item 4 of both for OFDM
and FHSS. -/
def kindConfigLegal (N : NumOps) (g : Cfg) : ModKind → Bool
  | .bfsk => N.isFinite g.carrier
  | .ofdm | .fhss => 1 ≤ g.bwdiv.toInt && N.isFinite g.fmin && N.isFinite g.fmax

/-- The configuration checks of MOD_NEW (R363). -/
def modConfigLegal (N : NumOps) (g : Cfg) (m : ModKind) : Bool :=
  g.bps.toInt = 1 && 1 ≤ g.srate.toInt && 1 ≤ g.sps.toInt && 1 ≤ g.expf.toInt
    && kindConfigLegal N g m

/-- A port's `none` raises `CONSTRUCTION_ERROR` (R364, R375, R412). -/
def built {α : Type} : Option α → Except Failure α
  | some v => .ok v
  | none => .error .constructionError

/-- The BFSK parameter set planned for a carrier (R364, R366). -/
def planTones (P : Params) (sps rate : Nat) (sepi : Int) (carrier : Number) :
    Except Failure ToneSet := do
  let p ← built (P.planFSK sps rate carrier sepi)
  return ⟨carrier, p.f0, p.f1, p.deltaF, p.bw⟩

/-- The base plan at carrier 0, the sub-band width and the centres of an OFDM or FHSS instance (R365,
R416). -/
structure BandPlan where
  base : Plan
  width : Number
  centers : Bank Number
deriving DecidableEq, Repr

/-- R365, and the same steps of R416. -/
def planBands (P : Params) (g : Cfg) (sps rate : Nat) (sepi : Int) : Except Failure BandPlan := do
  let base ← built (P.planFSK sps rate (P.num.ofInt 0) sepi)
  let width := P.num.div base.bw (P.num.ofInt g.bwdiv.toInt)
  require (P.num.isFinite width && P.num.gt width (P.num.ofInt 0)) .constructionError
  let cs ← tile P g.fmin g.fmax width
  let centers ← built (Bank.ofList? cs)
  return ⟨base, width, centers⟩

/-- Each channel in channel order; the first failure is the result's (R366, R416). -/
def buildAll {α β : Type} (f : α → Except Failure β) : List α → Except Failure (List β)
  | [] => .ok []
  | x :: xs => do
    let y ← f x
    let ys ← buildAll f xs
    return y :: ys

/-- `buildAll` over a bank. -/
def buildBank {α β : Type} (f : α → Except Failure β) (b : Bank α) : Except Failure (Bank β) := do
  let y ← f b.first
  let ys ← buildAll f b.rest
  return ⟨y, ys⟩

/-- One OFDM modulator channel: its sub-modulator (R366), then its filter (R375). -/
def buildOfdmLane (P : Params) (sps rate : Nat) (sepi : Int) (width centre : Number) :
    Except Failure OfdmLane := do
  let tones ← planTones P sps rate sepi centre
  let filt ← built (designBP P (P.plan.ofdmBand ⟨sps, rate, ⟨centre, width⟩, tones⟩))
  return ⟨tones, filt⟩

/-- The fields of a modulator of a kind (R364 to R366, R375). -/
def buildModBody (P : Params) (g : Cfg) (sps rate : Nat) (sepi : Int) :
    ModKind → Except Failure ModBody
  | .bfsk => do
    let tones ← planTones P sps rate sepi g.carrier
    return .bfsk tones
  | .ofdm => do
    let bp ← planBands P g sps rate sepi
    let lanes ← buildBank (buildOfdmLane P sps rate sepi bp.width) bp.centers
    return .ofdm bp.base bp.width lanes
  | .fhss => do
    let bp ← planBands P g sps rate sepi
    let lanes ← buildBank (planTones P sps rate sepi) bp.centers
    return .fhss bp.base bp.width lanes

/-- The modulator MOD_NEW builds from the configuration (R362, R363). -/
def buildMod (P : Params) (g : Cfg) (m : ModKind) : Except Failure Modulator := do
  require (modConfigLegal P.num g m) .configurationError
  let sps := g.sps.toInt.toNat
  let rate := g.srate.toInt.toNat
  let body ← buildModBody P g sps rate g.sepi.toInt m
  return ⟨sps, rate, g.expf.toInt.toNat, g.sepi.toInt, body⟩

/-- MOD_NEW (R362). -/
def modNewRule (P : Params) (a : Handle) (m : ModKind) (s : State) : Result := do
  fresh s a
  let md ← buildMod P s.cfg m
  done ((s.putObj a (.mod md)).setRNat 0 md.channels)

/-- MOD_NEW. -/
def execModNew (a : Handle) (m : ModKind) (s : State) : Host.Outcome State Fault Refusal :=
  commit (.modNew a m) s (modNewRule Config.params a m s)

/-! ### Modulation -/

/-- `tone(p, s)` (R367). -/
def toneOf (N : NumOps) (p : ToneSet) (x : Byte) : Number :=
  N.add p.carrier (if x = 1 then p.f1 else p.f0)

/-- `wave(p, s)`, one symbol slot (R367). -/
def wave (P : Params) (m : Modulator) (p : ToneSet) (x : Byte) : List Number :=
  let t := (synth P (m.sps * m.expf) m.rate [toneOf P.num p x]).take m.sps
  t ++ zeros P (m.sps * m.expf - t.length)

/-- The symbol slots of a list of symbols, in order (R371). -/
def waves (P : Params) (m : Modulator) (p : ToneSet) (xs : List Byte) : List Number :=
  xs.flatMap (wave P m p)

/-- `xs[c::N]` (R29). -/
def strided {α : Type} (xs : List α) (c n : Nat) : List α :=
  (List.range ((xs.length - c + n - 1) / n)).filterMap fun j => xs[c + j * n]?

/-- Two lists added sample by sample (R33). -/
def addSamples (N : NumOps) (xs ys : List Number) : List Number := List.zipWith N.add xs ys

/-- A list padded with zero samples to `n` (R372). -/
def padSamples (P : Params) (n : Nat) (xs : List Number) : List Number :=
  xs ++ zeros P (n - xs.length)

/-- The channels' sample-wise sum, padded to the longest, in channel order from channel 0 (R372). -/
def sumLanes (P : Params) (zs : Bank (List Number)) : List Number :=
  let n := zs.greatest List.length
  zs.rest.foldl (fun acc z => addSamples P.num acc (padSamples P n z)) (padSamples P n zs.first)

/-- The broadcast sentinel and the payload, before the round-robin split (R372). -/
def ofdmCombined (n : Nat) (sent syms : List Byte) : List Byte :=
  sent.flatMap (List.replicate n) ++ syms

/-- One OFDM channel's filtered output (R372). -/
def ofdmLaneOutput (P : Params) (m : Modulator) (combined : List Byte) (n ch : Nat)
    (lane : OfdmLane) : List Number :=
  P.applyFilter lane.filt (waves P m lane.tones (strided combined ch n))

/-- `ofdmMod` (R372). An empty payload and no sentinel give nothing, as R370's corner case says, whatever a
filter makes of an empty list (R19); DEDUCED, notes/assumptions/20.md. -/
def ofdmMod (P : Params) (m : Modulator) (lanes : Bank OfdmLane) (sent syms : List Byte) :
    List Number :=
  let n := lanes.count
  let combined := ofdmCombined n sent syms
  if sent = [] ∧ syms = [] then []
  else
    sumLanes P
      ⟨ofdmLaneOutput P m combined n 0 lanes.first,
        lanes.rest.mapIdx fun j lane => ofdmLaneOutput P m combined n (j + 1) lane⟩

/-- `fhssMod` (R373): symbol `j` takes the draw with number `k + j`. -/
def fhssMod (P : Params) (m : Modulator) (lanes : Bank ToneSet) (k : Nat) (xs : List Byte) :
    List Number :=
  (xs.mapIdx fun j x =>
    wave P m (lanes.toList.getD (hop P (k + j) lanes.count) lanes.first) x).flatten

/-- What MOD_RUN emits, given the draws taken so far (R370 to R373). -/
def modulate (P : Params) (m : Modulator) (draws : Nat) (sent syms : List Byte) : List Number :=
  match m.body with
  | .bfsk tones => waves P m tones (sent ++ syms)
  | .ofdm _ _ lanes => ofdmMod P m lanes sent syms
  | .fhss _ _ lanes => fhssMod P m lanes draws (sent ++ syms)

/-- How many draws a MOD_RUN takes: one per symbol for FHSS, none otherwise (R112, R373). -/
def drawsTaken (m : Modulator) (sent syms : List Byte) : Nat :=
  match m.body with
  | .bfsk _ => 0
  | .ofdm _ _ _ => 0
  | .fhss _ _ _ => sent.length + syms.length

/-- Whether every symbol is binary (R370). -/
def binarySymbols (xs : List Byte) : Bool := xs.all fun x => x.toNat ≤ 1

/-- MOD_RUN (R370): the output is appended. A run that fails with `CAPACITY` leaves the draws as they
were, as R370 asks (the output's length does not depend on them). -/
def modRunRule (P : Params) (a b c d : Handle) (s : State) : Result := do
  let out0 ← existing s a Obj.asReals
  let m ← existing s b Obj.asMod
  let syms ← existing s c Obj.asSymbols
  let sent? ← optional s d Obj.asSymbols
  let sent := sent?.getD []
  require (binarySymbols (syms ++ sent)) .invalidValue
  let out := modulate P m s.hopDraws sent syms
  requireElems P (out0.length + out.length)
  let s' := { s with hopDraws := s.hopDraws + drawsTaken m sent syms }
  done ((s'.putObj a (.reals (out0 ++ out))).setRNat 0 out.length)

/-- MOD_RUN. -/
def execModRun (a b c d : Handle) (s : State) : Host.Outcome State Fault Refusal :=
  commit (.modRun a b c d) s (modRunRule Config.params a b c d s)

/-! ### MOD_INFO -/

/-- The instance kind. -/
def ModBody.kind : ModBody → ModKind
  | .bfsk _ => .bfsk
  | .ofdm _ _ _ => .ofdm
  | .fhss _ _ _ => .fhss

/-- The four numbers MOD_INFO reports in `RF0..RF3` (R380). -/
def ModBody.info : ModBody → Plan
  | .bfsk p => ⟨p.f0, p.f1, p.deltaF, p.bw⟩
  | .ofdm base width _ => ⟨base.f0, base.f1, base.deltaF, width⟩
  | .fhss base width _ => ⟨base.f0, base.f1, base.deltaF, width⟩

/-- The carriers: `centers` for OFDM and FHSS (R72, R380). -/
def ModBody.centers : ModBody → List Number
  | .bfsk p => [p.carrier]
  | .ofdm _ _ lanes => lanes.toList.map fun l => l.tones.carrier
  | .fhss _ _ lanes => lanes.toList.map fun t => t.carrier

/-- `(RF0, RF1, RF2, RF3)` written together (R380, R445). -/
def State.setRFs (s : State) (x0 x1 x2 x3 : Number) : State :=
  (((s.setRF 0 x0).setRF 1 x1).setRF 2 x2).setRF 3 x3

/-- MOD_INFO (R380): `A = 0` reads the registers only; the capacity check is R200's. DESIGN CHOICE, unsafe
there: where `sps * expf` is 2^64 or more, `R2` holds it modulo 2^64, of which no rule speaks
(notes/assumptions/22.md). -/
def modInfoRule (P : Params) (a b : Handle) (s : State) : Result := do
  optionalFresh s a
  let m ← existing s b Obj.asMod
  let info := m.body.info
  let s1 := ((s.setRNat 0 m.channels).setR 1 (m.body.kind.code.setWidth 64)).setRNat 2 (m.sps * m.expf)
  let s2 := s1.setRFs info.f0 info.f1 info.deltaF info.bw
  if a = 0 then done s2
  else
    requireElems P m.body.centers.length
    done (s2.putObj a (.reals m.body.centers))

/-- MOD_INFO. -/
def execModInfo (a b : Handle) (s : State) : Host.Outcome State Fault Refusal :=
  commit (.modInfo a b) s (modInfoRule Config.params a b s)

end Sys2Proof.Machine
end

