-- ==== Sys2Proof/Machine/Timing.lean ====
section
/-! DEFINITION. The Gardner timing-recovery loop and the symbol decision (46_timing_recovery.md R470 to
R480). -/

namespace Sys2Proof.Machine

/-- What the Gardner loop returns: the sample points, and its final `offset` and `n` (R471, R476). -/
structure GardnerOut where
  idx : List Int
  offset : Int
  n : Nat
deriving DecidableEq, Repr

/-- `s[k]`; every index the loop reads is in bounds for `p >= 2` (R474). -/
def sampleAt (N : NumOps) (s : List Number) (k : Int) : Number := s.getD k.toNat (N.ofInt 0)

/-- The offset after the pass whose sample point is `next` (R471): the nudge is tried only where the
product of the two samples is below zero. -/
def gardnerNudge (N : NumOps) (s : List Number) (p : Nat) (thr : Number) (next offset : Int) : Int :=
  let atNext := sampleAt N s next
  let atPrev := sampleAt N s (next - p)
  let e := N.mul (N.sub atNext atPrev) (sampleAt N s (next - (p / 2 : Nat)))
  if N.lt (N.mul atNext atPrev) (N.ofInt 0) then
    if N.gt e thr then offset - 1
    else if N.lt e (N.neg thr) then offset + 1
    else offset
  else offset

/-- The loop of R471 from a given `offset` and `n`, for at most `passes` passes; `|s|` passes are enough
for `p >= 2` (R474). -/
def gardnerLoop (N : NumOps) (s : List Number) (p : Nat) (thr : Number) :
    Nat → Int → Nat → GardnerOut
  | 0, offset, n => ⟨[], offset, n⟩
  | passes + 1, offset, n =>
    let next : Int := (n * p : Nat) + offset
    if next < s.length then
      let r := gardnerLoop N s p thr passes (gardnerNudge N s p thr next offset) (n + 1)
      { r with idx := next :: r.idx }
    else ⟨[], offset, n⟩

/-- `gardner(s, p, thr)` (R471). -/
def gardner (N : NumOps) (s : List Number) (p : Nat) (thr : Number) : GardnerOut :=
  gardnerLoop N s p thr s.length 0 1

/-- `decide(v)` (R480). -/
def decideSymbol (N : NumOps) (v : Number) : Byte := if N.ge v (N.ofInt 0) then 0 else 1

/-- TR_GARDNER (R470): the threshold is `GTHRESH` at the time of the command (R472), and the capacity
check is R200's. -/
def trGardnerRule (P : Params) (a b : Handle) (c : IReg) (s : State) : Result := do
  fresh s a
  let xs ← existing s b Obj.asReals
  let p := (s.getI c).toInt
  require (2 ≤ p) .invalidValue
  let g := gardner P.num xs p.toNat s.cfg.gthresh
  requireElems P g.idx.length
  done ((((s.putObj a (.indices (g.idx.map (BitVec.ofInt 64)))).setRInt 0 g.offset).setRNat 1 g.n).setRNat 2
    g.idx.length)

/-- TR_GARDNER. -/
def execTrGardner (a b : Handle) (c : IReg) (s : State) : Host.Outcome State Fault Refusal :=
  commit (.trGardner a b c) s (trGardnerRule Config.params a b c s)

/-- TR_DECIDE (R480); the capacity check is R200's. -/
def trDecideRule (P : Params) (a b c : Handle) (s : State) : Result := do
  fresh s a
  let xs ← existing s b Obj.asReals
  let ks ← existing s c Obj.asIndices
  require (ks.all fun k => 0 ≤ k.toInt && k.toInt < xs.length) .invalidValue
  requireElems P ks.length
  let out := ks.map fun k => decideSymbol P.num (sampleAt P.num xs k.toInt)
  done ((s.putObj a (.symbols out)).setRNat 0 ks.length)

/-- TR_DECIDE. -/
def execTrDecide (a b c : Handle) (s : State) : Host.Outcome State Fault Refusal :=
  commit (.trDecide a b c) s (trDecideRule Config.params a b c s)

end Sys2Proof.Machine
end

