-- ==== Sys2Proof/Machine/Demodulation.lean ====
section
/-! DEFINITION. Demodulator commands: envelope detector, interpolator, BFSK, OFDM, FHSS
(45_demodulators.md R410 to R446). -/

namespace Sys2Proof.Machine

/-! ### Construction -/

/-- The configuration checks of DEM_NEW (R410). -/
def demConfigLegal (N : NumOps) (g : Cfg) (m : ModKind) : Bool :=
  g.bps.toInt = 1 && 1 ≤ g.srate.toInt && 1 ≤ g.sps.toInt
    && 1 ≤ g.dsps.toInt && g.dsps.toInt ≤ 2 * g.sps.toInt && kindConfigLegal N g m

/-- The arguments of a stage-1 bandpass filter around a tone (R412). -/
def stageOneArgs (P : Params) (ctx : DesignCtx) (tone : Number) : BandpassArgs :=
  let N := P.num
  let low := N.sub tone ctx.tones.deltaF
  let high := N.add tone ctx.tones.deltaF
  let att := P.plan.demodAtt ctx
  ⟨N.sub low ctx.tones.bw, low, high, N.add high ctx.tones.bw, att.1, att.2, N.ofInt ctx.rate⟩

/-- The arguments of the stage-3 lowpass filter, whose pass edge is `bw` (R413). -/
def envelopeArgs (P : Params) (ctx : DesignCtx) : LowpassArgs :=
  let q := P.plan.envLP ctx
  ⟨ctx.tones.bw, q.stop, q.passAtt, q.stopAtt, q.rateArg⟩

/-- One channel without its stage-6 filter, built for a design context: the filter for symbol 0, then
the one for symbol 1 (R412), then `lpi`, then `lpe` (R413). -/
def buildChan (P : Params) (ctx : DesignCtx) : Except Failure Chan := do
  let t0 := P.num.add ctx.tones.carrier ctx.tones.f0
  let t1 := P.num.add ctx.tones.carrier ctx.tones.f1
  let bp0 ← built (designBP P (stageOneArgs P ctx t0))
  let bp1 ← built (designBP P (stageOneArgs P ctx t1))
  let lpi ← built (designLP P (P.plan.interpLP ctx))
  let lpe ← built (designLP P (envelopeArgs P ctx))
  return ⟨ctx.tones, t0, t1, bp0, bp1, P.groupDelay bp0, P.groupDelay bp1, lpi, lpe⟩

/-- The stage-6 lowpass filter (R414). -/
def buildSmooth (P : Params) (ctx : DesignCtx) : Except Failure Filter :=
  built (designLP P (P.plan.smoothLP ctx))

/-- A channel with its stage-6 filter (R412 to R414). -/
def buildSmoothChan (P : Params) (ctx : DesignCtx) : Except Failure SmoothChan := do
  let ch ← buildChan P ctx
  let lp ← buildSmooth P ctx
  return ⟨ch, lp⟩

/-- The design context of the channel at a centre (R415, R416). -/
def channelCtx (P : Params) (sps rate dsps : Nat) (sepi : Int) (width centre : Number) :
    Except Failure DesignCtx := do
  let tones ← planTones P sps rate sepi centre
  return ⟨sps, rate, dsps, tones, some ⟨centre, width⟩⟩

/-- The channels of a demodulator of a kind (R416). -/
def buildDemBody (P : Params) (g : Cfg) (sps rate dsps : Nat) (sepi : Int) :
    ModKind → Except Failure DemBody
  | .bfsk => do
    let tones ← planTones P sps rate sepi g.carrier
    let ch ← buildSmoothChan P ⟨sps, rate, dsps, tones, none⟩
    return .bfsk ch
  | .ofdm => do
    let bp ← planBands P g sps rate sepi
    let chans ← buildBank (fun c => do
      let ctx ← channelCtx P sps rate dsps sepi bp.width c
      buildSmoothChan P ctx) bp.centers
    return .ofdm bp.base bp.width chans
  | .fhss => do
    let bp ← planBands P g sps rate sepi
    let chans ← buildBank (fun c => do
      let ctx ← channelCtx P sps rate dsps sepi bp.width c
      buildChan P ctx) bp.centers
    let lp6c ← buildSmooth P
      ⟨sps, rate, dsps, chans.first.tones, some ⟨chans.first.tones.carrier, bp.width⟩⟩
    return .fhss bp.base bp.width chans lp6c

/-- The demodulator DEM_NEW builds from the configuration (R410, R411). -/
def buildDem (P : Params) (g : Cfg) (m : ModKind) : Except Failure Demodulator := do
  require (demConfigLegal P.num g m) .configurationError
  let sps := g.sps.toInt.toNat
  let rate := g.srate.toInt.toNat
  let dsps := g.dsps.toInt.toNat
  let body ← buildDemBody P g sps rate dsps g.sepi.toInt m
  return ⟨sps, rate, dsps, g.sepi.toInt, g.gthresh, 2 * sps / dsps, 2 * dsps, dsps, body⟩

/-- DEM_NEW (R410). -/
def demNewRule (P : Params) (a : Handle) (m : ModKind) (s : State) : Result := do
  fresh s a
  let d ← buildDem P s.cfg m
  done ((s.putObj a (.dem d)).setRNat 0 d.channels)

/-- DEM_NEW. -/
def execDemNew (a : Handle) (m : ModKind) (s : State) : Host.Outcome State Fault Refusal :=
  commit (.demNew a m) s (demNewRule Config.params a m s)

/-! ### The stages -/

/-- `zstuff(x)` (R420). -/
def zstuff (N : NumOps) (xs : List Number) : List Number := xs.flatMap fun v => [v, N.ofInt 0]

/-- `peak(x)`, a fold in index order (R420). -/
def peak (N : NumOps) (xs : List Number) : Number :=
  xs.foldl (fun m v => if N.gt (N.abs v) m then N.abs v else m) (N.ofInt 0)

/-- `norm(x)` (R420): a zero peak leaves the list unchanged. -/
def norm (N : NumOps) (xs : List Number) : List Number :=
  let m := peak N xs
  if N.eq m (N.ofInt 0) then xs else xs.map fun v => N.div v m

/-- Stage 1 (R421). -/
def stage1 (P : Params) (bp : Filter) (gd : Nat) (xs : List Number) : List Number :=
  (P.applyFilter bp xs).drop gd

/-- Stage 2, the interpolator (R422). -/
def stage2 (P : Params) (lpi : Filter) (xs : List Number) : List Number :=
  P.applyFilter lpi (zstuff P.num xs)

/-- Stage 3, the envelope detector (R423). -/
def stage3 (P : Params) (lpe : Filter) (xs : List Number) : List Number :=
  P.applyFilter lpe (xs.map fun v => P.num.mul v v)

/-- Stage 4, decimation: the samples at indices `0, D, 2D, ...` (R424). -/
def stage4 (d : Nat) (xs : List Number) : List Number := strided xs 0 d

/-- The merged sample of two (R425): branch 1 only where its magnitude is larger. -/
def mergeSample (N : NumOps) (x y : Number) : Number := if N.gt (N.abs y) (N.abs x) then y else x

/-- Stage 5, the sign-merge (R425): as long as the shorter branch. -/
def stage5 (N : NumOps) (a b : List Number) : List Number :=
  List.zipWith (mergeSample N) (norm N a) ((norm N b).map N.neg)

/-- A sum from `ofInt(0)` in index order (R426). -/
def sumOf (N : NumOps) (xs : List Number) : Number := xs.foldl N.add (N.ofInt 0)

/-- The moving average over the last `w` samples, the divisor always `w` (R426). -/
def movingAverage (N : NumOps) (w : Nat) (xs : List Number) : List Number :=
  (List.range xs.length).map fun i =>
    N.div (sumOf N ((xs.take (i + 1)).drop (i + 1 - w))) (N.ofInt w)

/-- The mean (R426); of an empty list, `ofInt(0)`. -/
def meanOf (N : NumOps) (xs : List Number) : Number :=
  if xs.length = 0 then N.ofInt 0 else N.div (sumOf N xs) (N.ofInt xs.length)

/-- The DC bias removed (R426). -/
def removeMean (N : NumOps) (xs : List Number) : List Number :=
  let m := meanOf N xs
  xs.map fun v => N.sub v m

/-- Stage 6 (R426). -/
def stage6 (P : Params) (w : Nat) (lp : Filter) (xs : List Number) : List Number :=
  norm P.num (P.applyFilter lp (zstuff P.num (removeMean P.num (movingAverage P.num w xs))))

/-- Stage 7: the Gardner sample points and their decisions (R427). -/
def stage7 (N : NumOps) (g : Nat) (thr : Number) (xs : List Number) : List Byte :=
  (gardner N xs g thr).idx.map fun k => decideSymbol N (sampleAt N xs k)

/-! ### The pipelines -/

/-- `branch(ch, 0, x)`: stages 1 to 4 for symbol 0 (R428). -/
def branch0 (P : Params) (d : Nat) (ch : Chan) (xs : List Number) : List Number :=
  stage4 d (stage3 P ch.lpe (stage2 P ch.lpi (stage1 P ch.bp0 ch.gd0 xs)))

/-- `branch(ch, 1, x)`: stages 1 to 4 for symbol 1 (R428). -/
def branch1 (P : Params) (d : Nat) (ch : Chan) (xs : List Number) : List Number :=
  stage4 d (stage3 P ch.lpe (stage2 P ch.lpi (stage1 P ch.bp1 ch.gd1 xs)))

/-- `soft(ch, x)` (R428). -/
def softTrack (P : Params) (d : Demodulator) (ch : SmoothChan) (xs : List Number) : List Number :=
  stage6 P d.window ch.lp6
    (stage5 P.num (branch0 P d.decim ch.chan xs) (branch1 P d.decim ch.chan xs))

/-- `bfsk(ch, x)` (R428). -/
def bfskSymbols (P : Params) (d : Demodulator) (ch : SmoothChan) (xs : List Number) : List Byte :=
  stage7 P.num d.gardnerSps d.thr (softTrack P d ch xs)

/-- `pick(t, i)`: the sample of largest magnitude, ties to the lowest channel (R429). -/
def pickSample (N : NumOps) (tracks : Bank (List Number)) (i : Nat) : Number :=
  let at_ := fun (t : List Number) => sampleAt N t i
  tracks.rest.foldl (fun w t => if N.gt (N.abs (at_ t)) (N.abs w) then at_ t else w)
    (at_ tracks.first)

/-- The combined track of one symbol's branches, `n` samples long (R429). -/
def combineTracks (N : NumOps) (tracks : Bank (List Number)) (n : Nat) : List Number :=
  (List.range n).map (pickSample N tracks)

/-- `fhssSoft(x)` (R429). -/
def fhssSoftTrack (P : Params) (d : Demodulator) (chans : Bank Chan) (lp6c : Filter)
    (xs : List Number) : List Number :=
  let a := chans.map fun ch => branch0 P d.decim ch xs
  let b := chans.map fun ch => branch1 P d.decim ch xs
  let n := min (a.least List.length) (b.least List.length)
  stage6 P d.window lp6c (stage5 P.num (combineTracks P.num a n) (combineTracks P.num b n))

/-- `fhss(x)` (R429). -/
def fhssSymbols (P : Params) (d : Demodulator) (chans : Bank Chan) (lp6c : Filter)
    (xs : List Number) : List Byte :=
  stage7 P.num d.gardnerSps d.thr (fhssSoftTrack P d chans lp6c xs)

/-! ### Commands -/

/-- DEM_RUN (R430): an OFDM instance gives one list per channel (R432), the others one list. DESIGN CHOICE,
unsafe where it is wrong: R430's "input too short to fill one symbol" has no case of its own; a list is empty
where the soft track is too short for a Gardner point, and how long that track is depends on `apply`
(notes/assumptions/21.md). -/
def demRunRule (P : Params) (a b c : Handle) (s : State) : Result := do
  fresh s a
  let d ← existing s b Obj.asDem
  let xs ← existing s c Obj.asReals
  match d.body with
  | .bfsk ch =>
    let out := bfskSymbols P d ch xs
    requireElems P out.length
    done (((s.putObj a (.symbols out)).setRNat 0 out.length).setRNat 1 1)
  | .fhss _ _ chans lp6c =>
    let out := fhssSymbols P d chans lp6c xs
    requireElems P out.length
    done (((s.putObj a (.symbols out)).setRNat 0 out.length).setRNat 1 chans.count)
  | .ofdm _ _ chans =>
    let outs := chans.map fun ch => bfskSymbols P d ch xs
    requireElems P (outs.greatest List.length)
    done (((s.putObj a (.chanSyms outs)).setRNat 0 (outs.least List.length)).setRNat 1 outs.count)

/-- DEM_RUN. -/
def execDemRun (a b c : Handle) (s : State) : Host.Outcome State Fault Refusal :=
  commit (.demRun a b c) s (demRunRule Config.params a b c s)

/-- The soft-symbol track DEM_SOFT gives; `none` for an OFDM instance (R431). -/
def softOf? (P : Params) (d : Demodulator) (xs : List Number) : Option (List Number) :=
  match d.body with
  | .bfsk ch => some (softTrack P d ch xs)
  | .fhss _ _ chans lp6c => some (fhssSoftTrack P d chans lp6c xs)
  | .ofdm _ _ _ => none

/-- DEM_SOFT (R431). -/
def demSoftRule (P : Params) (a b c : Handle) (s : State) : Result := do
  fresh s a
  let d ← existing s b Obj.asDem
  let xs ← existing s c Obj.asReals
  match softOf? P d xs with
  | none => .error .invalidValue
  | some out =>
    requireElems P out.length
    done ((s.putObj a (.reals out)).setRNat 0 out.length)

/-- DEM_SOFT. -/
def execDemSoft (a b c : Handle) (s : State) : Host.Outcome State Fault Refusal :=
  commit (.demSoft a b c) s (demSoftRule Config.params a b c s)

/-- `assembleSymbols` (R440): column-major from `offset`, to the shortest channel's length. -/
def assembleSymbols (chs : Bank (List Byte)) (offset : Nat) : List Byte :=
  (List.range (chs.least List.length - offset)).flatMap fun j =>
    chs.toList.map fun xs => xs.getD (offset + j) 0

/-- DEM_ASSEMBLE (R440): the offset is read as `s64`. -/
def demAssembleRule (P : Params) (a b : Handle) (c : IReg) (s : State) : Result := do
  fresh s a
  let chs ← existing s b Obj.asChanSyms
  let o := (s.getI c).toInt
  require (0 ≤ o) .invalidValue
  let out := assembleSymbols chs o.toNat
  requireElems P out.length
  done ((s.putObj a (.symbols out)).setRNat 0 out.length)

/-- DEM_ASSEMBLE. -/
def execDemAssemble (a b : Handle) (c : IReg) (s : State) : Host.Outcome State Fault Refusal :=
  commit (.demAssemble a b c) s (demAssembleRule Config.params a b c s)

/-- The instance kind. -/
def DemBody.kind : DemBody → ModKind
  | .bfsk _ => .bfsk
  | .ofdm _ _ _ => .ofdm
  | .fhss _ _ _ _ => .fhss

/-- `chans[0]` (R445). -/
def DemBody.channel0 : DemBody → Chan
  | .bfsk ch => ch.chan
  | .ofdm _ _ chans => chans.first.chan
  | .fhss _ _ chans _ => chans.first

/-- DEM_INFO (R445). -/
def demInfoRule (a : Handle) (s : State) : Result := do
  let d ← existing s a Obj.asDem
  let ch := d.body.channel0
  let s1 := (s.setRNat 0 d.channels).setR 1 (d.body.kind.code.setWidth 64)
  let s2 := (s1.setRNat 2 d.decim).setRNat 3 d.gardnerSps
  done (s2.setRFs ch.t0 ch.t1 ch.tones.deltaF d.thr)

/-- DEM_INFO. -/
def execDemInfo (a : Handle) (s : State) : Host.Outcome State Fault Refusal :=
  commit (.demInfo a) s (demInfoRule a s)

end Sys2Proof.Machine
end

