-- ==== Sys2Proof/Machine/FrameSync.lean ====
section
/-! DEFINITION. Sentinel frame correlator commands (47_frame_sync.md R500 to R511). -/

namespace Sys2Proof.Machine

/-- `bip(x)` (R501). -/
def bip (x : Byte) : Int := if x = 0 then -1 else 1

/-- The term of `corr[m]` at sentinel index `i`: 0 where the received index falls outside the stream
(R502). -/
def corrTerm (r s : List Byte) (m i : Nat) : Int :=
  if s.length ≤ m + 1 + i then
    match r[m + 1 + i - s.length]?, s[i]? with
    | some x, some y => bip x * bip y
    | _, _ => 0
  else 0

/-- `corr[m]` (R502). -/
def corrAt (r s : List Byte) (m : Nat) : Int := ((List.range s.length).map (corrTerm r s m)).sum

/-- The indices of the full correlation, `[0, R + S - 1)` (R502). -/
def corrIndices (r s : List Byte) : List Nat := List.range (r.length + s.length - 1)

/-- The least index at which `f` is greatest, of a list of indices in rising order whose best so far is
`best` (R503). -/
def firstMax (f : Nat → Int) (best : Nat) (ms : List Nat) : Nat :=
  ms.foldl (fun b m => if f b < f m then m else b) best

/-- `locate` (R503, R504): the position of the first maximum; `none` where it falls at or beyond the
received length, or a list is empty. -/
def locate (r s : List Byte) : Option Nat :=
  if r.length = 0 || s.length = 0 then none
  else
    let pos := firstMax (corrAt r s) 0 (corrIndices r s)
    if pos < r.length then some pos else none

/-- SYNC_LOCATE (R500). -/
def syncLocateRule (a b : Handle) (s : State) : Result := do
  let r ← existing s a Obj.asSymbols
  let sent ← existing s b Obj.asSymbols
  match locate r sent with
  | none => .error .syncError
  | some pos =>
    done (((s.setRNat 0 pos).setRInt 1 (corrAt r sent pos)).setRInt 2
      ((pos : Int) - (sent.length : Int) + 1))

/-- SYNC_LOCATE. -/
def execSyncLocate (a b : Handle) (s : State) : Host.Outcome State Fault Refusal :=
  commit (.syncLocate a b) s (syncLocateRule a b s)

/-- The offsets of the channels that locate the sentinel, in channel order (R510). -/
def locatedOffsets (chs : Bank (List Byte)) (sent : List Byte) : List Nat :=
  chs.toList.filterMap fun r => locate r sent

/-- `votes(v)` (R510). -/
def votes (ok : List Nat) (v : Nat) : Nat := ok.countP (· = v)

/-- Whether `v` beats `w`: more votes, or as many and a smaller offset (R510). -/
def beats (ok : List Nat) (v w : Nat) : Bool :=
  votes ok w < votes ok v || (votes ok v = votes ok w && v < w)

/-- The least of the most frequent offsets; `none` of none (R510). -/
def modeOffset (ok : List Nat) : Option Nat :=
  match ok with
  | [] => none
  | v :: rest => some (rest.foldl (fun b w => if beats ok w b then w else b) v)

/-- SYNC_MULTI (R510). -/
def syncMultiRule (a b : Handle) (s : State) : Result := do
  let chs ← existing s a Obj.asChanSyms
  let sent ← existing s b Obj.asSymbols
  let ok := locatedOffsets chs sent
  match modeOffset ok with
  | none => .error .syncError
  | some best => done (((s.setRNat 0 best).setRNat 1 ok.length).setRNat 2 (votes ok best))

/-- SYNC_MULTI. -/
def execSyncMulti (a b : Handle) (s : State) : Host.Outcome State Fault Refusal :=
  commit (.syncMulti a b) s (syncMultiRule a b s)

end Sys2Proof.Machine
end

