-- ==== Sys2Proof/Machine/Tracker.lean ====
section
/-! DEFINITION. Symbol tracker commands (42_symbol_tracker.md R300 to R304). -/

namespace Sys2Proof.Machine

/-- The `j`-th whole symbol of `w` bits of a bit list (R302, R304). -/
def symbolAt (xs : List Bool) (w j : Nat) : Byte := BitVec.ofNat 8 (natOfBits ((xs.drop (j * w)).take w))

/-- Every whole symbol of `w` bits; trailing bits are discarded (R302). -/
def symbolsOf (xs : List Bool) (w : Nat) : List Byte := (List.range (xs.length / w)).map (symbolAt xs w)

/-- TRK_NEW (R300): the width is read as `s64`. -/
def trkNewRule (a b : Handle) (c : IReg) (s : State) : Result := do
  fresh s a
  let _ ← existing s b Obj.asSource
  let w := (s.getI c).toInt
  require (1 ≤ w && w ≤ 8) .invalidWidth
  done (s.putObj a (.tracker ⟨b, w.toNat, 0⟩))

/-- TRK_NEW. -/
def execTrkNew (a b : Handle) (c : IReg) (s : State) : Host.Outcome State Fault Refusal :=
  commit (.trkNew a b c) s (trkNewRule a b c s)

/-- TRK_NEXT (R301): with fewer than `bps` bits left it returns `None`, consumes them, and leaves `I[B]`
alone. -/
def trkNextRule (a : Handle) (b : IReg) (s : State) : Result := do
  let tr ← existing s a Obj.asTracker
  let src ← resolveSource s tr.src
  let xs := src.bits
  if tr.rd + tr.bps ≤ xs.length then
    let v := BitVec.ofNat 64 (natOfBits ((xs.drop tr.rd).take tr.bps))
    done (((s.setI b v).putObj a (.tracker { tr with rd := tr.rd + tr.bps })).setR 0 1)
  else
    return (.shortRead, (s.putObj a (.tracker { tr with rd := max tr.rd xs.length })).setR 0 0)

/-- TRK_NEXT. -/
def execTrkNext (a : Handle) (b : IReg) (s : State) : Host.Outcome State Fault Refusal :=
  commit (.trkNext a b) s (trkNextRule a b s)

/-- TRK_TOLIST (R302). -/
def trkTolistRule (P : Params) (a b : Handle) (c : IReg) (s : State) : Result := do
  fresh s a
  let src ← existing s b Obj.asSource
  let w := (s.getI c).toInt
  require (1 ≤ w && w ≤ 8) .invalidWidth
  let q := src.bits.length / w.toNat
  requireElems P q
  done ((s.putObj a (.symbols (symbolsOf src.bits w.toNat))).setRNat 0 q)

/-- TRK_TOLIST. -/
def execTrkTolist (a b : Handle) (c : IReg) (s : State) : Host.Outcome State Fault Refusal :=
  commit (.trkTolist a b c) s (trkTolistRule Config.params a b c s)

end Sys2Proof.Machine
end

