-- ==== Sys2Proof/Machine/Dispatch.lean ====
section
/-! DEFINITION. The meaning of every command (R140): one arm per constructor of `Instr`. -/

namespace Sys2Proof.Machine

def exec (i : Instr) (s : State) : Host.Outcome State Fault Refusal :=
  match i with
  | .nop => Sys2Proof.Machine.execNop s
  | .seti a imm => Sys2Proof.Machine.execSeti a imm s
  | .setf a imm => Sys2Proof.Machine.execSetf a imm s
  | .movr a b => Sys2Proof.Machine.execMovr a b s
  | .addi a b imm => Sys2Proof.Machine.execAddi a b imm s
  | .cfgWri a b => Sys2Proof.Machine.execCfgWri a b s
  | .cfgWrf a b => Sys2Proof.Machine.execCfgWrf a b s
  | .cfgRd a => Sys2Proof.Machine.execCfgRd a s
  | .clrerr => Sys2Proof.Machine.execClrerr s
  | .reset => Sys2Proof.Machine.execReset s
  | .movrf a b => Sys2Proof.Machine.execMovrf a b s
  | .bufNew a k => Sys2Proof.Machine.execBufNew a k s
  | .bufFree a => Sys2Proof.Machine.execBufFree a s
  | .bufLen a => Sys2Proof.Machine.execBufLen a s
  | .bufPushi a b => Sys2Proof.Machine.execBufPushi a b s
  | .bufPushf a b => Sys2Proof.Machine.execBufPushf a b s
  | .bufGeti a b => Sys2Proof.Machine.execBufGeti a b s
  | .bufGetf a b => Sys2Proof.Machine.execBufGetf a b s
  | .bufSlice a b c => Sys2Proof.Machine.execBufSlice a b c s
  | .bufConcat a b => Sys2Proof.Machine.execBufConcat a b s
  | .chGet a b c => Sys2Proof.Machine.execChGet a b c s
  | .pkNew a => Sys2Proof.Machine.execPkNew a s
  | .pkWrbits a b c => Sys2Proof.Machine.execPkWrbits a b c s
  | .pkWrbytes a b => Sys2Proof.Machine.execPkWrbytes a b s
  | .pkFlush a b => Sys2Proof.Machine.execPkFlush a b s
  | .stNew a b circular => Sys2Proof.Machine.execStNew a b circular s
  | .stRdbits a b c => Sys2Proof.Machine.execStRdbits a b c s
  | .stRdu a b c => Sys2Proof.Machine.execStRdu a b c s
  | .stRds a b c => Sys2Proof.Machine.execStRds a b c s
  | .stPeek a b => Sys2Proof.Machine.execStPeek a b s
  | .stRemain a => Sys2Proof.Machine.execStRemain a s
  | .trkNew a b c => Sys2Proof.Machine.execTrkNew a b c s
  | .trkNext a b => Sys2Proof.Machine.execTrkNext a b s
  | .trkTolist a b c => Sys2Proof.Machine.execTrkTolist a b c s
  | .codecMan a => Sys2Proof.Machine.execCodecMan a s
  | .codecRs a b c => Sys2Proof.Machine.execCodecRs a b c s
  | .codecEnc a b c => Sys2Proof.Machine.execCodecEnc a b c s
  | .codecDec a b c d => Sys2Proof.Machine.execCodecDec a b c d s
  | .codecInfo a => Sys2Proof.Machine.execCodecInfo a s
  | .carriers a b => Sys2Proof.Machine.execCarriers a b s
  | .modNew a m => Sys2Proof.Machine.execModNew a m s
  | .modRun a b c d => Sys2Proof.Machine.execModRun a b c d s
  | .modInfo a b => Sys2Proof.Machine.execModInfo a b s
  | .demNew a m => Sys2Proof.Machine.execDemNew a m s
  | .demRun a b c => Sys2Proof.Machine.execDemRun a b c s
  | .demSoft a b c => Sys2Proof.Machine.execDemSoft a b c s
  | .demAssemble a b c => Sys2Proof.Machine.execDemAssemble a b c s
  | .demInfo a => Sys2Proof.Machine.execDemInfo a s
  | .trGardner a b c => Sys2Proof.Machine.execTrGardner a b c s
  | .trDecide a b c => Sys2Proof.Machine.execTrDecide a b c s
  | .syncLocate a b => Sys2Proof.Machine.execSyncLocate a b s
  | .syncMulti a b => Sys2Proof.Machine.execSyncMulti a b s

end Sys2Proof.Machine
end

