-- ==== Sys2Proof/Machine/CommandPort.lean ====
section
/-! DEFINITION. The host interface (20_memory.md R104, R105): words issued to the command decoder (R52,
R152), the read port, and the reset line (R702). -/

namespace Sys2Proof.Machine

/-! ### The read port (R105) -/

/-- `ID`, a constant in every state (R62). -/
def idValue : Bits64 := 0x0000000050434107

/-- The `DEC` summary: 0 when `Idle`, else `need` in bits `[7:0]` and the header's opcode in bits
`[15:8]` (R105). -/
def decSummary : Decoder → Bits64
  | .idle => 0
  | .collecting header need _ => BitVec.ofNat 64 ((fieldOp header).toNat * 256 + need % 256)

/-- A configuration register as the read port gives it (R105). -/
def CfgVal.onPort (N : NumOps) : CfgVal → Bits64
  | .int v => v
  | .num x => N.toBinary64 x

/-- `read(a)` (R105): any address without a register reads as 0. -/
def readPort (P : Params) (s : State) (a : BitVec 12) : Bits64 :=
  let n := a.toNat
  if n = 0x000 then idValue
  else if n = 0x001 then s.status
  else if n = 0x002 then s.sticky
  else if n = 0x003 then s.errcmd
  else if n = 0x004 then decSummary s.dec
  else if 0x010 ≤ n && n ≤ 0x013 then s.getR (Fin.ofNat 4 (n - 0x010))
  else if 0x018 ≤ n && n ≤ 0x01B then P.num.toBinary64 (s.getRF (Fin.ofNat 4 (n - 0x018)))
  else if 0x020 ≤ n && n ≤ 0x02F then s.getI (Fin.ofNat 16 (n - 0x020))
  else if 0x030 ≤ n && n ≤ 0x03F then P.num.toBinary64 (s.getF (Fin.ofNat 16 (n - 0x030)))
  else
    match (if 0x040 ≤ n then CfgReg.ofCode? (BitVec.ofNat 8 (min (n - 0x040) 255)) else none) with
    | some c => (s.cfg.get c).onPort P.num
    | none => 0

/-! ### The command decoder (R52, R152) -/

/-- `execute(h, ext)` (R152): an illegal command ends with `ILLEGAL_COMMAND` and has no other effect
(R145). -/
def executeWords (h : Word) (ext : List Word) (s : State) : Host.Outcome State Fault Refusal :=
  match decode (h :: ext) with
  | .error _ => .next (raiseFailure h s .illegalCommand)
  | .ok i => exec i s

/-- `issue(w)` (R104, R152): a header word of a longer command starts collecting; the last word of a
command executes it with the decoder back in `Idle`. -/
def issueWord (w : Word) (s : State) : Host.Outcome State Fault Refusal :=
  match s.dec with
  | .idle =>
    if commandLength w = 1 then executeWords w [] s
    else .next { s with dec := .collecting w (commandLength w - 1) [] }
  | .collecting h need got =>
    if need = 1 then executeWords h (got ++ [w]) { s with dec := .idle }
    else .next { s with dec := .collecting h (need - 1) (got ++ [w]) }

/-! ### The host's operations (R104) -/

/-- One host operation. A read has no side effect on the block (R105); the value it returns goes to the
host. -/
def hostStep (op : HostOp) (s : State) : Host.Outcome State Fault Refusal :=
  match op with
  | .issue w => issueWord w s
  | .read a => .next { s with replies := s.replies ++ [readPort Config.params s a] }
  | .resetLine => .next (s.resetBlock Config.params)

/-- The next host operation, oldest first (R116); with none pending the block waits and all its state
survives (R632; DESIGN CHOICE, notes/assumptions/5.md). -/
def portStep (s : State) : Host.Outcome State Fault Refusal :=
  match s.pending with
  | [] => .next s
  | op :: rest => hostStep op { s with pending := rest }

/-- The state in which the words of a command but for its last have been issued from `Idle`, and the last
is the next host operation. -/
def presentWords (s : State) (ws : List Word) : State :=
  match ws with
  | [] => s
  | [w] => { s with dec := .idle, pending := .issue w :: s.pending }
  | h :: ext =>
    { s with
      dec := .collecting h 1 ext.dropLast
      pending := ext.getLast?.toList.map .issue ++ s.pending }

end Sys2Proof.Machine
end

