-- ==== Sys2Proof/Machine/Step.lean ====
section
/-! DEFINITION. One step of the machine: the next operation of the host (R50, R104). -/

namespace Sys2Proof.Machine

/-- One step (R104, R116). -/
def step (s : State) : Host.Outcome State Fault Refusal := portStep s

/-- `s` with the command whose bits are `w` presented to the command port: the words before its last have
been issued, so that the next step issues the last word and runs it (R52). -/
def State.withFetchWord (s : State) (nbits w : Nat) : State := presentWords s (tableWords nbits w)

end Sys2Proof.Machine
end

