-- ==== Sys2Proof/Machine/Rules.lean ====
section
/-! DEFINITION. Every command's rule for an arbitrary implementation of the parameters (R7 to R22): the
machine's `exec` is this rule at `Config.params`, ended by `commit` (Laws/Exec.lean). -/

namespace Sys2Proof.Machine

/-- What a command's rule comes to in a state, for the implementation `P` (R140). -/
def commandRule (P : Params) (i : Instr) (s : State) : Result :=
  match i with
  | .nop => nopRule s
  | .seti a imm => setiRule a imm s
  | .setf a imm => setfRule P a imm s
  | .movr a b => movrRule a b s
  | .addi a b imm => addiRule a b imm s
  | .cfgWri a b => cfgWriRule a b s
  | .cfgWrf a b => cfgWrfRule a b s
  | .cfgRd a => cfgRdRule a s
  | .clrerr => clrerrRule s
  | .reset => resetRule P s
  | .movrf a b => movrfRule a b s
  | .bufNew a k => bufNewRule a k s
  | .bufFree a => bufFreeRule a s
  | .bufLen a => bufLenRule a s
  | .bufPushi a b => bufPushiRule P a b s
  | .bufPushf a b => bufPushfRule P a b s
  | .bufGeti a b => bufGetiRule a b s
  | .bufGetf a b => bufGetfRule a b s
  | .bufSlice a b c => bufSliceRule P a b c s
  | .bufConcat a b => bufConcatRule P a b s
  | .chGet a b c => chGetRule P a b c s
  | .pkNew a => pkNewRule a s
  | .pkWrbits a b c => pkWrbitsRule P a b c s
  | .pkWrbytes a b => pkWrbytesRule P a b s
  | .pkFlush a b => pkFlushRule P a b s
  | .stNew a b circular => stNewRule a b circular s
  | .stRdbits a b c => stRdbitsRule P a b c s
  | .stRdu a b c => stRduRule a b c s
  | .stRds a b c => stRdsRule a b c s
  | .stPeek a b => stPeekRule P a b s
  | .stRemain a => stRemainRule a s
  | .trkNew a b c => trkNewRule a b c s
  | .trkNext a b => trkNextRule a b s
  | .trkTolist a b c => trkTolistRule P a b c s
  | .codecMan a => codecManRule a s
  | .codecRs a b c => codecRsRule P a b c s
  | .codecEnc a b c => codecEncRule P a b c s
  | .codecDec a b c d => codecDecRule P a b c d s
  | .codecInfo a => codecInfoRule a s
  | .carriers a b => carriersRule P a b s
  | .modNew a m => modNewRule P a m s
  | .modRun a b c d => modRunRule P a b c d s
  | .modInfo a b => modInfoRule P a b s
  | .demNew a m => demNewRule P a m s
  | .demRun a b c => demRunRule P a b c s
  | .demSoft a b c => demSoftRule P a b c s
  | .demAssemble a b c => demAssembleRule P a b c s
  | .demInfo a => demInfoRule a s
  | .trGardner a b c => trGardnerRule P a b c s
  | .trDecide a b c => trDecideRule P a b c s
  | .syncLocate a b => syncLocateRule a b s
  | .syncMulti a b => syncMultiRule a b s

end Sys2Proof.Machine
end

