-- ==== Sys2Proof/Safety.lean ====
section
/-! DEFINITION. What claims about PCA-CORE are stated in terms of: runs that never stop (R600), the
invariant of the state (R58 to R73), and the operand classes of every command (R140, R200, R602). -/

namespace Sys2Proof.Machine

/-! ### Safe runs -/

/-- A run of any number of steps never stops: PCA-CORE has no fatal state (R600). -/
def NeverStops (s : State) : Prop := ∀ k, ∃ t, Sys2Proof.core.run k s = .next t

/-! ### How a command ends, in terms of the state before it or of its writes -/

/-- The state `t` with the status `OK` recorded: `STICKY` and `ERRCMD` stay (R58 to R60). -/
def afterOk (t : State) : State := { t with status := 0 }

/-- The state `t` with a non-zero status recorded for the command whose header word is given (R58 to
R60). -/
def afterStatus (header : Word) (t : State) (code : Nat) : State :=
  { t with
    status := BitVec.ofNat 64 code
    sticky := t.sticky ||| (1 <<< code)
    errcmd := header.setWidth 64 }

/-- A command that raised a failing status: nothing but the status registers differs from the state
before it (R604). -/
def afterFailure (i : Instr) (s : State) (e : Failure) : State := afterStatus (headerWord i) s e.code

/-- `h` names a slot that holds `o` (R200's "existing"). -/
def Holds (s : State) (h : Handle) (o : Obj) : Prop := h ≠ 0 ∧ s.obj h = some o

/-- `h` can be a fresh destination (R200). -/
def Vacant (s : State) (h : Handle) : Prop := h ≠ 0 ∧ s.obj h = none

/-- An optional `SYMBOLS` operand and the list it stands for: the empty list where it is absent (R370). -/
def OptionalSymbols (s : State) (h : Handle) (xs : List Byte) : Prop :=
  (h = 0 ∧ xs = []) ∨ Holds s h (.symbols xs)

/-- An optional `MASK` operand and what it stands for (R341). -/
def OptionalMask (s : State) (h : Handle) (mk : Option (List Bool)) : Prop :=
  (h = 0 ∧ mk = none) ∨ ∃ xs, mk = some xs ∧ Holds s h (.mask xs)

/-- `h` names a source object, `BYTES` or `PACKER`, whose bits are `xs` (R261). -/
def SourceBits (s : State) (h : Handle) (xs : List Bool) : Prop :=
  (∃ bs, Holds s h (.bytes bs) ∧ xs = bytesToBits bs) ∨ Holds s h (.packer xs)

/-! ### Sequences of reads and of fields (R107, R269) -/

/-- Successive reads of one Stream over a source, of the widths given. -/
def readSequence (src : List Bool) : Stream → List Nat → Except Failure (List StreamRead)
  | _, [] => .ok []
  | st, n :: ns => do
    let r ← readStream st src n
    let rs ← readSequence src { st with rd := r.rd } ns
    return r :: rs

/-- Consecutive slices of a bit list, of the widths given. -/
def slicesOf (xs : List Bool) : List Nat → List (List Bool)
  | [] => []
  | n :: ns => xs.take n :: slicesOf (xs.drop n) ns

/-! ### Objects as their commands make them (R70 to R74) -/

/-- Every channel of a bank has a property. -/
def Bank.All {α : Type} (p : α → Prop) (b : Bank α) : Prop := ∀ x ∈ b.toList, p x

/-- A Stream's source is a handle that can hold an object (R260, R63). -/
def Stream.Wf (st : Stream) : Prop := st.src ≠ 0

/-- A Tracker's source, and its bits per symbol (R70, R300). -/
def Tracker.Wf (tr : Tracker) : Prop := tr.src ≠ 0 ∧ 1 ≤ tr.bps ∧ tr.bps ≤ 8

/-- A Manchester codec has lengths 2 and 1 (R320); a Reed-Solomon codec has lengths that are positive
multiples of 8 and that its port accepts (R330). -/
def Codec.Wf (P : Params) (c : Codec) : Prop :=
  match c.ckind with
  | .manchester => c.blockLength = 2 ∧ c.messageLength = 1
  | .rs =>
    0 < c.blockLength ∧ 0 < c.messageLength ∧ c.blockLength % 8 = 0 ∧ c.messageLength % 8 = 0
      ∧ P.rsAccepts (c.blockLength / 8) (c.messageLength / 8) = true

/-- The channels of a modulator are what its stored parameters build (R72, R364 to R366, R375). -/
def ModBody.Wf (P : Params) (sps rate : Nat) (sepi : Int) : ModBody → Prop
  | .bfsk tones => planTones P sps rate sepi tones.carrier = .ok tones
  | .ofdm base width lanes =>
    P.planFSK sps rate (P.num.ofInt 0) sepi = some base ∧ lanes.count ≤ P.maxElems
      ∧ lanes.All fun l => buildOfdmLane P sps rate sepi width l.tones.carrier = .ok l
  | .fhss base _ lanes =>
    P.planFSK sps rate (P.num.ofInt 0) sepi = some base ∧ lanes.count ≤ P.maxElems
      ∧ lanes.All fun t => planTones P sps rate sepi t.carrier = .ok t

/-- A modulator has legal parameters (R363) and the channels they build. -/
def Modulator.Wf (P : Params) (m : Modulator) : Prop :=
  1 ≤ m.sps ∧ 1 ≤ m.rate ∧ 1 ≤ m.expf ∧ m.body.Wf P m.sps m.rate m.sepi

/-- The channels of a demodulator are what its stored parameters build (R73, R412 to R416). -/
def DemBody.Wf (P : Params) (sps rate dsps : Nat) (sepi : Int) : DemBody → Prop
  | .bfsk ch =>
    planTones P sps rate sepi ch.chan.tones.carrier = .ok ch.chan.tones
      ∧ buildSmoothChan P ⟨sps, rate, dsps, ch.chan.tones, none⟩ = .ok ch
  | .ofdm base width chans =>
    P.planFSK sps rate (P.num.ofInt 0) sepi = some base ∧ chans.count ≤ P.maxElems
      ∧ chans.All fun ch =>
        planTones P sps rate sepi ch.chan.tones.carrier = .ok ch.chan.tones
          ∧ buildSmoothChan P
            ⟨sps, rate, dsps, ch.chan.tones, some ⟨ch.chan.tones.carrier, width⟩⟩ = .ok ch
  | .fhss base width chans lp6c =>
    P.planFSK sps rate (P.num.ofInt 0) sepi = some base ∧ chans.count ≤ P.maxElems
      ∧ (chans.All fun ch =>
        planTones P sps rate sepi ch.tones.carrier = .ok ch.tones
          ∧ buildChan P ⟨sps, rate, dsps, ch.tones, some ⟨ch.tones.carrier, width⟩⟩ = .ok ch)
      ∧ buildSmooth P ⟨sps, rate, dsps, chans.first.tones,
          some ⟨chans.first.tones.carrier, width⟩⟩ = .ok lp6c

/-- A demodulator has legal parameters (R410), the derived constants of R411, and the channels they
build. -/
def Demodulator.Wf (P : Params) (d : Demodulator) : Prop :=
  1 ≤ d.sps ∧ 1 ≤ d.rate ∧ 1 ≤ d.dsps ∧ d.dsps ≤ 2 * d.sps
    ∧ d.decim = 2 * d.sps / d.dsps ∧ d.gardnerSps = 2 * d.dsps ∧ d.window = d.dsps
    ∧ d.body.Wf P d.sps d.rate d.dsps d.sepi

/-- An object is within the capacity of R8 and is one its kind's commands make. -/
def Obj.Wf (P : Params) : Obj → Prop
  | .bytes xs => xs.length ≤ P.maxElems
  | .reals xs => xs.length ≤ P.maxElems
  | .symbols xs => xs.length ≤ P.maxElems
  | .indices xs => xs.length ≤ P.maxElems
  | .mask xs => xs.length ≤ P.maxElems
  | .chanSyms chs => chs.count ≤ P.maxElems ∧ chs.All fun xs => xs.length ≤ P.maxElems
  | .packer bits => bits.length ≤ 8 * P.maxElems
  | .stream st => st.Wf
  | .tracker tr => tr.Wf
  | .codec c => c.Wf P
  | .mod m => m.Wf P
  | .dem d => d.Wf P

/-! ### The invariant -/

/-- The decoder has collected part of a command: words are still to come, and with the header and the
words collected they make up the command's length (R52). -/
def Decoder.Wf : Decoder → Prop
  | .idle => True
  | .collecting header need got => 1 ≤ need ∧ got.length + need + 1 = commandLength header

/-- What every step keeps: the object memory's canonical form with slot 0 `EMPTY` (R63), its objects as
commands make them (R70), `STATUS` a status code (R58, R600), `STICKY`'s bits 0 and 63 to 14 clear and
its bit for the last failing status set (R59), `ERRCMD` a zero-extended word (R60), and the decoder
part way through a command (R52). -/
structure Inv (P : Params) (s : State) : Prop where
  slots : slotsWf s.slots = true
  objects : ∀ h o, slotGet s.slots h = some o → o.Wf P
  status : s.status.toNat ≤ 13
  stickyClear : ∀ k, k = 0 ∨ 14 ≤ k → s.sticky.getLsbD k = false
  stickyStatus : s.status ≠ 0 → s.sticky.getLsbD s.status.toNat = true
  errcmd : s.errcmd.toNat < 2 ^ 32
  decoder : s.dec.Wf

/-! ### Operand classes (R200, R602) -/

/-- The class of a handle operand: an existing object of one of some kinds, a fresh destination, or
either of the two as an optional operand. -/
inductive OperandClass where
  | existing (kinds : List Kind)
  | fresh
  | optional (kinds : List Kind)
  | optionalFresh
deriving DecidableEq, Repr

/-- The kinds of R140's "list" class. -/
def listKinds : List Kind := [.bytes, .reals, .symbols, .indices, .mask]

/-- The list kinds with integer elements (R215, R217). -/
def intKinds : List Kind := [.bytes, .symbols, .indices, .mask]

/-- Every kind (R211, R212). -/
def allKinds : List Kind :=
  [.bytes, .reals, .symbols, .indices, .mask, .chanSyms, .packer, .stream, .tracker, .codec, .mod, .dem]

/-- The kinds that can be a Stream's or Tracker's source (R260, R300). -/
def sourceKinds : List Kind := [.bytes, .packer]

/-- The kind BUF_CONCAT's second operand must have: that of the first (R220). -/
def kindAt (s : State) (h : Handle) : List Kind := ((s.obj h).map Obj.kind).toList

/-- A command's handle operands in field order, with the class the opcode map gives each (R140). -/
def handleOperands (s : State) : Instr → List (Handle × OperandClass)
  | .nop | .seti _ _ | .setf _ _ | .movr _ _ | .addi _ _ _ | .cfgWri _ _ | .cfgWrf _ _ | .cfgRd _
  | .clrerr | .reset | .movrf _ _ => []
  | .bufNew a _ => [(a, .fresh)]
  | .bufFree a => [(a, .existing allKinds)]
  | .bufLen a => [(a, .existing allKinds)]
  | .bufPushi a _ => [(a, .existing intKinds)]
  | .bufPushf a _ => [(a, .existing [.reals])]
  | .bufGeti a _ => [(a, .existing intKinds)]
  | .bufGetf a _ => [(a, .existing [.reals])]
  | .bufSlice a b _ => [(a, .fresh), (b, .existing listKinds)]
  | .bufConcat a b => [(a, .existing listKinds), (b, .existing (kindAt s a))]
  | .chGet a b _ => [(a, .fresh), (b, .existing [.chanSyms])]
  | .pkNew a => [(a, .fresh)]
  | .pkWrbits a _ _ => [(a, .existing [.packer])]
  | .pkWrbytes a b => [(a, .existing [.packer]), (b, .existing [.bytes])]
  | .pkFlush a b => [(a, .fresh), (b, .existing [.packer])]
  | .stNew a b _ => [(a, .fresh), (b, .existing sourceKinds)]
  | .stRdbits a b _ => [(a, .existing [.stream]), (b, .fresh)]
  | .stRdu a _ _ => [(a, .existing [.stream])]
  | .stRds a _ _ => [(a, .existing [.stream])]
  | .stPeek a b => [(a, .existing [.stream]), (b, .fresh)]
  | .stRemain a => [(a, .existing [.stream])]
  | .trkNew a b _ => [(a, .fresh), (b, .existing sourceKinds)]
  | .trkNext a _ => [(a, .existing [.tracker])]
  | .trkTolist a b _ => [(a, .fresh), (b, .existing sourceKinds)]
  | .codecMan a => [(a, .fresh)]
  | .codecRs a _ _ => [(a, .fresh)]
  | .codecEnc a b c => [(a, .fresh), (b, .existing [.codec]), (c, .existing [.bytes])]
  | .codecDec a b c d =>
    [(a, .fresh), (b, .existing [.codec]), (c, .existing [.bytes]), (d, .optional [.mask])]
  | .codecInfo a => [(a, .existing [.codec])]
  | .carriers a _ => [(a, .fresh)]
  | .modNew a _ => [(a, .fresh)]
  | .modRun a b c d =>
    [(a, .existing [.reals]), (b, .existing [.mod]), (c, .existing [.symbols]),
      (d, .optional [.symbols])]
  | .modInfo a b => [(a, .optionalFresh), (b, .existing [.mod])]
  | .demNew a _ => [(a, .fresh)]
  | .demRun a b c => [(a, .fresh), (b, .existing [.dem]), (c, .existing [.reals])]
  | .demSoft a b c => [(a, .fresh), (b, .existing [.dem]), (c, .existing [.reals])]
  | .demAssemble a b _ => [(a, .fresh), (b, .existing [.chanSyms])]
  | .demInfo a => [(a, .existing [.dem])]
  | .trGardner a b _ => [(a, .fresh), (b, .existing [.reals])]
  | .trDecide a b c => [(a, .fresh), (b, .existing [.reals]), (c, .existing [.indices])]
  | .syncLocate a b => [(a, .existing [.symbols]), (b, .existing [.symbols])]
  | .syncMulti a b => [(a, .existing [.chanSyms]), (b, .existing [.symbols])]

/-- What an existing-object operand raises (R602): `NULL_BUFFER` for 0 or an `EMPTY` slot,
`WRONG_KIND` for an object of a kind not accepted. -/
def existingFailure (s : State) (h : Handle) (kinds : List Kind) : Option Failure :=
  if h = 0 then some .nullBuffer
  else
    match s.obj h with
    | none => some .nullBuffer
    | some o => if o.kind ∈ kinds then none else some .wrongKind

/-- What a fresh destination raises (R602): `NULL_BUFFER` for 0, `HANDLE_BUSY` for a slot in use. -/
def freshFailure (s : State) (h : Handle) : Option Failure :=
  if h = 0 then some .nullBuffer
  else if (s.obj h).isSome then some .handleBusy else none

/-- What a handle operand raises; an optional operand that is 0 is absent and passes (R602). -/
def operandFailure (s : State) (q : Handle × OperandClass) : Option Failure :=
  match q.2 with
  | .existing kinds => existingFailure s q.1 kinds
  | .fresh => freshFailure s q.1
  | .optional kinds => if q.1 = 0 then none else existingFailure s q.1 kinds
  | .optionalFresh => if q.1 = 0 then none else freshFailure s q.1

/-- The first failure of a command's handle operands, in field order (R602). -/
def firstOperandFailure (s : State) (i : Instr) : Option Failure :=
  (handleOperands s i).findSome? (operandFailure s)

/-- The handles a command names (R64). -/
def namedHandles (s : State) (i : Instr) : List Handle := (handleOperands s i).map Prod.fst

/-- The handle of the source a Stream or Tracker command reads, where its first operand is a Stream or
Tracker (R268, R602). -/
def indirectSource (s : State) : Instr → Option Handle
  | .stRdbits a _ _ | .stRdu a _ _ | .stRds a _ _ | .stPeek a _ | .stRemain a =>
    ((s.obj a).bind Obj.asStream).map Stream.src
  | .trkNext a _ => ((s.obj a).bind Obj.asTracker).map Tracker.src
  | .nop | .seti _ _ | .setf _ _ | .movr _ _ | .addi _ _ _ | .cfgWri _ _ | .cfgWrf _ _ | .cfgRd _
  | .clrerr | .reset | .movrf _ _ | .bufNew _ _ | .bufFree _ | .bufLen _ | .bufPushi _ _
  | .bufPushf _ _ | .bufGeti _ _ | .bufGetf _ _ | .bufSlice _ _ _ | .bufConcat _ _ | .chGet _ _ _
  | .pkNew _ | .pkWrbits _ _ _ | .pkWrbytes _ _ | .pkFlush _ _ | .stNew _ _ _ | .trkNew _ _ _
  | .trkTolist _ _ _ | .codecMan _ | .codecRs _ _ _ | .codecEnc _ _ _ | .codecDec _ _ _ _
  | .codecInfo _ | .carriers _ _ | .modNew _ _ | .modRun _ _ _ _ | .modInfo _ _ | .demNew _ _
  | .demRun _ _ _ | .demSoft _ _ _ | .demAssemble _ _ _ | .demInfo _ | .trGardner _ _ _
  | .trDecide _ _ _ | .syncLocate _ _ | .syncMulti _ _ => none

/-! ### The registers a command may write (R53 to R57) -/

/-- The commands whose rules write an `I` register, with the register (R202, R204, R213, R264, R265,
R301). -/
def writesI : Instr → Option IReg
  | .seti a _ | .movr a _ | .addi a _ _ => some a
  | .stRdu _ b _ | .stRds _ b _ | .trkNext _ b => some b
  | _ => none

/-- The commands whose rules write an `F` register (R203, R214). -/
def writesF : Instr → Option FReg
  | .setf a _ | .movrf a _ => some a
  | _ => none

/-- The result registers of `R0..R3` that a command's rule writes (R55). -/
def writesR : Instr → List RReg
  | .nop | .seti _ _ | .setf _ _ | .movr _ _ | .addi _ _ _ | .cfgWri _ _ | .cfgWrf _ _ | .clrerr
  | .movrf _ _ | .bufNew _ _ | .bufFree _ | .bufPushi _ _ | .bufPushf _ _ | .bufGetf _ _
  | .bufSlice _ _ _ | .bufConcat _ _ | .chGet _ _ _ | .pkNew _ | .pkWrbits _ _ _ | .pkWrbytes _ _
  | .pkFlush _ _ | .stNew _ _ _ | .trkNew _ _ _ | .codecMan _ | .codecRs _ _ _ => []
  | .cfgRd c => if c.isInt then [0] else []
  | .bufGeti _ _ | .stRdbits _ _ _ | .stRdu _ _ _ | .stRds _ _ _ | .trkNext _ _ | .trkTolist _ _ _
  | .codecEnc _ _ _ | .carriers _ _ | .modNew _ _ | .modRun _ _ _ _ | .demNew _ _ | .demSoft _ _ _
  | .demAssemble _ _ _ | .trDecide _ _ _ => [0]
  | .bufLen _ | .stPeek _ _ | .stRemain _ | .codecDec _ _ _ _ | .demRun _ _ _ => [0, 1]
  | .codecInfo _ | .modInfo _ _ | .trGardner _ _ _ | .syncLocate _ _ | .syncMulti _ _ => [0, 1, 2]
  | .reset | .demInfo _ => [0, 1, 2, 3]

/-- The result registers of `RF0..RF3` that a command's rule writes (R56, R207, R218, R380, R445). -/
def writesRF : Instr → List RReg
  | .cfgRd c => if c.isInt then [] else [0]
  | .bufGetf _ _ => [0]
  | .reset | .modInfo _ _ | .demInfo _ => [0, 1, 2, 3]
  | _ => []

/-- The commands but RESET whose rules write a configuration register, with the register (R57, R205,
R206). -/
def writesCfg : Instr → Option CfgReg
  | .cfgWri c _ | .cfgWrf c _ => some c
  | _ => none

end Sys2Proof.Machine
end

