-- ==== Sys2Proof/Certificates/Slice0/Obligations.lean ====
section
/-! DEFINITION. The statements for the provers, from the numbered rules of the spec. A statement about the
machine speaks of `exec` and `step`, which run at the opaque implementation `Config.params`, so it holds
for every implementation the spec admits. -/

open Sys2Proof Sys2Proof.Machine

/-! ### Encoding and decoding -/

/-- R162: the decoder reads every legal command back from its encoding, every operand at every value. -/
def Obligations.DecodeEncode : Prop :=
  ∀ i : Instr, i.WellFormed = true → decode (encode i) = .ok i

/-- R131 to R135, R145: a list of words the decoder accepts is the encoding of the legal command it
gives, so no bit of it is ignored and no two lists give one command. -/
def Obligations.EncodeDecode : Prop :=
  ∀ (ws : List Word) (i : Instr), decode ws = .ok i → i.WellFormed = true ∧ encode i = ws

/-- R162 and the examples of R210, R250, R260, R340, R360, R362, R431, R500 among them: written-out words
decode to the commands they stand for. -/
def Obligations.DecodedWords : Prop :=
  decode [0x00000201, 0x00000000, 0x0000001B] = .ok (.seti 2 0x1B) ∧
  decode [0x01030304] = .ok (.addi 3 3 1) ∧
  decode [0x00010110] = .ok (.bufNew 1 .bytes) ∧
  decode [0x00000120] = .ok (.pkNew 1) ∧
  decode [0x03020121] = .ok (.pkWrbits 1 2 3) ∧
  decode [0x01020324] = .ok (.stNew 3 2 true) ∧
  decode [0x01090242] = .ok (.codecEnc 2 9 1) ∧
  decode [0x00000450] = .ok (.carriers 4 0) ∧
  decode [0x00000551] = .ok (.modNew 5 .bfsk) ∧
  decode [0x03040552, 0x00000002] = .ok (.modRun 5 4 3 2) ∧
  decode [0x02060762] = .ok (.demSoft 7 6 2) ∧
  decode [0x00020370] = .ok (.syncLocate 3 2)

/-- R146: an undefined opcode is a one-word command that ends with `ILLEGAL_COMMAND`, and the decoder
stays in `Idle`, whatever its other bits. -/
def Obligations.UndefinedOpcodes : Prop :=
  ∀ (w : Word) (rest : List HostOp) (s : State),
    let op := (fieldOp w).toNat
    (0x0B ≤ op ∧ op ≤ 0x0F) ∨ (0x1A ≤ op ∧ op ≤ 0x1F) ∨ (0x2A ≤ op ∧ op ≤ 0x2F) ∨
      (0x33 ≤ op ∧ op ≤ 0x3F) ∨ (0x45 ≤ op ∧ op ≤ 0x4F) ∨ (0x54 ≤ op ∧ op ≤ 0x5F) ∨
      (0x65 ≤ op ∧ op ≤ 0x67) ∨ (0x6A ≤ op ∧ op ≤ 0x6F) ∨ 0x72 ≤ op →
    s.dec = .idle → s.pending = .issue w :: rest →
    step s = .next
      { s with
        pending := rest
        status := 11
        sticky := s.sticky ||| (1 <<< 11)
        errcmd := w.setWidth 64 }

/-- R52, R145, R148: the header word of a longer command starts collecting, and each further word but the
last is appended; when the last word arrives and the words are no legal command, the command ends with
`ILLEGAL_COMMAND` and has no other effect. -/
def Obligations.CommandPortWords : Prop :=
  (∀ (w : Word) (rest : List HostOp) (s : State), s.pending = .issue w :: rest →
      (s.dec = .idle → 1 < commandLength w →
        step s = .next { s with pending := rest, dec := .collecting w (commandLength w - 1) [] }) ∧
      (∀ h need got, s.dec = .collecting h need got → 1 < need →
        step s = .next { s with pending := rest, dec := .collecting h (need - 1) (got ++ [w]) })) ∧
  (∀ (w : Word) (rest : List HostOp) (r : Reject) (s : State), s.pending = .issue w :: rest →
      (s.dec = .idle → commandLength w = 1 → decode [w] = .error r →
        step s = .next (afterStatus w { s with pending := rest } 11)) ∧
      (∀ h got, s.dec = .collecting h 1 got → decode (h :: (got ++ [w])) = .error r →
        step s = .next (afterStatus h { s with pending := rest, dec := .idle } 11)))

/-! ### The command port -/

/-- R52, R152: when the last word of a legal command arrives, the step is `exec` of that command, with
that word taken from the host's queue and the decoder back in `Idle`. -/
def Obligations.StepRunsDecodedCommand : Prop :=
  ∀ (w : Word) (rest : List HostOp) (i : Instr) (s : State), s.pending = .issue w :: rest →
    (s.dec = .idle → decode [w] = .ok i → step s = exec i { s with pending := rest }) ∧
    (∀ h got, s.dec = .collecting h 1 got → decode (h :: (got ++ [w])) = .ok i →
      step s = exec i { s with pending := rest, dec := .idle })

/-- R105: the whole read-port map; a read has no side effect on the block. That the value read goes to the
list of replies, and the operation comes from a queue, is the model's choice (log entry 5). -/
def Obligations.ReadPortMap : Prop :=
  ∀ (s : State),
    (∀ (a : BitVec 12) (rest : List HostOp), s.pending = .read a :: rest →
      step s = .next
        { s with pending := rest, replies := s.replies ++ [readPort Config.params s a] }) ∧
    readPort Config.params s 0x000 = 0x0000000050434107 ∧
    readPort Config.params s 0x001 = s.status ∧
    readPort Config.params s 0x002 = s.sticky ∧
    readPort Config.params s 0x003 = s.errcmd ∧
    (s.dec = .idle → readPort Config.params s 0x004 = 0) ∧
    (∀ h need got, s.dec = .collecting h need got →
      readPort Config.params s 0x004 = BitVec.ofNat 64 (need % 256 + 256 * (fieldOp h).toNat)) ∧
    (∀ r : Fin 4, readPort Config.params s (BitVec.ofNat 12 (0x010 + r.val)) = s.rregs[r]) ∧
    (∀ r : Fin 4, readPort Config.params s (BitVec.ofNat 12 (0x018 + r.val)) =
      Config.params.num.toBinary64 s.rfregs[r]) ∧
    (∀ r : Fin 16, readPort Config.params s (BitVec.ofNat 12 (0x020 + r.val)) = s.iregs[r]) ∧
    (∀ r : Fin 16, readPort Config.params s (BitVec.ofNat 12 (0x030 + r.val)) =
      Config.params.num.toBinary64 s.fregs[r]) ∧
    (∀ c : CfgReg, readPort Config.params s (BitVec.ofNat 12 (0x040 + c.code.toNat)) =
      match s.cfg.get c with
      | .int v => v
      | .num x => Config.params.num.toBinary64 x) ∧
    (∀ a : BitVec 12,
      (0x005 ≤ a.toNat ∧ a.toNat ≤ 0x00F) ∨ (0x014 ≤ a.toNat ∧ a.toNat ≤ 0x017) ∨
        (0x01C ≤ a.toNat ∧ a.toNat ≤ 0x01F) ∨ 0x04B ≤ a.toNat →
      readPort Config.params s a = 0)

/-- R700: every piece of the block's state after reset. -/
def Obligations.ResetValues : Prop :=
  State.reset.dec = .idle ∧ State.reset.status = 0 ∧ State.reset.sticky = 0 ∧ State.reset.errcmd = 0 ∧
  (∀ r : IReg, State.reset.getI r = 0) ∧
  (∀ r : FReg, State.reset.getF r = Config.params.num.ofInt 0) ∧
  (∀ r : RReg, State.reset.getR r = 0) ∧
  (∀ r : RReg, State.reset.getRF r = Config.params.num.ofInt 0) ∧
  (∀ c : CfgReg, c.isInt = true → State.reset.cfg.get c = .int 0) ∧
  (∀ c : CfgReg, c = .carrier ∨ c = .fmin ∨ c = .fmax →
    State.reset.cfg.get c = .num (Config.params.num.ofInt 0)) ∧
  State.reset.cfg.get .gthresh = .num (Config.params.num.ofBinary64 0x3F1A36E2EB1C432D) ∧
  (∀ h : Handle, State.reset.obj h = none)

/-- R600, R632: the machine never stops, from any state; a step with nothing issued changes nothing (that a
step may wait is the model's choice, log entry 5). -/
def Obligations.MachineNeverStops : Prop :=
  (∀ s : State, NeverStops s) ∧ (∀ s : State, s.pending = [] → step s = .next s)

/-! ### Rules of the whole machine -/

/-- R604: a failing status is precise and atomic. -/
def Obligations.FailingStatusAtomic : Prop :=
  ∀ (i : Instr) (s t : State), exec i s = .next t → 3 ≤ t.status.toNat →
    t = { s with status := t.status, sticky := t.sticky, errcmd := t.errcmd }

/-- R58 to R60, R603: what every command but CLRERR and RESET leaves in the status registers. -/
def Obligations.StatusRegistersRecord : Prop :=
  ∀ (i : Instr) (s t : State), i ≠ .clrerr → i ≠ .reset → exec i s = .next t →
    t.status.toNat ≤ 13 ∧
    t.sticky = (if t.status = 0 then s.sticky else s.sticky ||| (1 <<< t.status.toNat)) ∧
    t.errcmd = (if t.status = 0 then s.errcmd else (headerWord i).setWidth 64)

/-- The invariant `Inv` is kept by every step, from every state that has it. -/
def Obligations.InvariantKept : Prop :=
  ∀ s t : State, Inv Config.params s → step s = .next t → Inv Config.params t

/-- The invariant `Inv` holds after reset. -/
def Obligations.InvariantAtReset : Prop := Inv Config.params State.reset

/-- R53 to R57: every register of the five files, `I`, `F`, `R`, `RF` and the configuration registers, is written
only by a command whose rule names that register. No command writes the decoder (R52), nor the host's queue and
replies, which are the model's own fields (DESIGN CHOICE, log entry 5). -/
def Obligations.RegistersWrittenWhereNamed : Prop :=
  ∀ (i : Instr) (s t : State), i ≠ .reset → exec i s = .next t →
    (∀ r : IReg, writesI i ≠ some r → t.getI r = s.getI r) ∧
    (∀ r : FReg, writesF i ≠ some r → t.getF r = s.getF r) ∧
    (∀ r : RReg, r ∉ writesR i → t.getR r = s.getR r) ∧
    (∀ r : RReg, r ∉ writesRF i → t.getRF r = s.getRF r) ∧
    (∀ c : CfgReg, writesCfg i ≠ some c → t.cfg.get c = s.cfg.get c) ∧
    t.dec = s.dec ∧ t.pending = s.pending ∧ t.replies = s.replies

/-- R64: a slot changes only by a command that names its handle. -/
def Obligations.SlotsChangedWhereNamed : Prop :=
  ∀ (i : Instr) (s t : State) (h : Handle), i ≠ .reset → exec i s = .next t →
    h ∉ namedHandles s i → t.obj h = s.obj h

/-- R602, item 2: the handle operands are checked first, in field order, and the first that fails gives
the status. -/
def Obligations.HandleOperandsChecked : Prop :=
  ∀ (i : Instr) (s : State) (e : Failure), i.WellFormed = true → firstOperandFailure s i = some e →
    exec i s = .next (afterFailure i s e)

/-- R602, item 3, and R268, R303: when the handle operands pass, the source of a Stream or Tracker
command is checked next. -/
def Obligations.SourcesChecked : Prop :=
  ∀ (i : Instr) (s : State) (src : Handle) (e : Failure), firstOperandFailure s i = none →
    indirectSource s i = some src → existingFailure s src sourceKinds = some e →
    exec i s = .next (afterFailure i s e)

/-! ### Register and control commands -/

/-- R201 to R204, R213, R214: the register commands, in every state. -/
def Obligations.RegisterCommands : Prop :=
  ∀ s : State,
    exec .nop s = .next { s with status := 0 } ∧
    (∀ a v, exec (.seti a v) s = .next { s with iregs := s.iregs.set a v, status := 0 }) ∧
    (∀ a v, exec (.setf a v) s =
      .next { s with fregs := s.fregs.set a (Config.params.num.ofBinary64 v), status := 0 }) ∧
    (∀ (a : IReg) (b : RReg), exec (.movr a b) s =
      .next { s with iregs := s.iregs.set a s.rregs[b], status := 0 }) ∧
    (∀ (a : FReg) (b : RReg), exec (.movrf a b) s =
      .next { s with fregs := s.fregs.set a s.rfregs[b], status := 0 }) ∧
    (∀ (a b : IReg) (v : Byte), exec (.addi a b v) s =
      .next { s with iregs := s.iregs.set a (s.iregs[b] + v.signExtend 64), status := 0 })

/-- R205 to R207: a configuration register takes any value of its type and reads back exactly it, and no
other one changes. -/
def Obligations.ConfigCommands : Prop :=
  ∀ s : State,
    (∀ (a : CfgReg) (b : IReg), a.isInt = true →
      ∃ g, exec (.cfgWri a b) s = .next { s with cfg := g, status := 0 } ∧
        g.get a = .int (s.getI b) ∧ ∀ c, c ≠ a → g.get c = s.cfg.get c) ∧
    (∀ (a : CfgReg) (b : FReg), a.isInt = false →
      ∃ g, exec (.cfgWrf a b) s = .next { s with cfg := g, status := 0 } ∧
        g.get a = .num (s.getF b) ∧ ∀ c, c ≠ a → g.get c = s.cfg.get c) ∧
    (∀ (a : CfgReg) (v : Bits64), s.cfg.get a = .int v →
      exec (.cfgRd a) s = .next (afterOk (s.setR 0 v))) ∧
    (∀ (a : CfgReg) (x : Number), s.cfg.get a = .num x →
      exec (.cfgRd a) s = .next (afterOk (s.setRF 0 x)))

/-- R208, R209, R702: CLRERR clears `STICKY` and keeps `ERRCMD`; RESET and the reset line leave
`ResetState`, the latter whatever the decoder holds. The draws taken, the host's further operations and
the replies it has are not block state and stay (log entries 4 and 5). -/
def Obligations.ClearAndReset : Prop :=
  (∀ s : State,
      exec .clrerr s = .next { s with sticky := 0, status := 0 } ∧
      exec .reset s = .next
        { State.reset with hopDraws := s.hopDraws, pending := s.pending, replies := s.replies }) ∧
  (∀ (rest : List HostOp) (s : State), s.pending = .resetLine :: rest →
      step s = .next
        { State.reset with hopDraws := s.hopDraws, pending := rest, replies := s.replies })

/-! ### Object and buffer commands -/

/-- R210 to R212: creating, freeing and measuring an object. -/
def Obligations.ObjectCommands : Prop :=
  ∀ (a : Handle) (s : State),
    (Vacant s a →
      exec (.bufNew a .bytes) s = .next (afterOk (s.putObj a (.bytes []))) ∧
      exec (.bufNew a .reals) s = .next (afterOk (s.putObj a (.reals []))) ∧
      exec (.bufNew a .symbols) s = .next (afterOk (s.putObj a (.symbols []))) ∧
      exec (.bufNew a .indices) s = .next (afterOk (s.putObj a (.indices []))) ∧
      exec (.bufNew a .mask) s = .next (afterOk (s.putObj a (.mask [])))) ∧
    (∀ o, Holds s a o →
      ∃ t, exec (.bufFree a) s = .next t ∧ t.obj a = none ∧
        t = { s with slots := t.slots, status := 0 } ∧ ∀ h, h ≠ a → t.obj h = s.obj h) ∧
    (let reports := fun (len : Nat) (code : Bits64) =>
       exec (.bufLen a) s = .next (afterOk ((s.setRNat 0 len).setR 1 code));
      (∀ xs, Holds s a (.bytes xs) → reports xs.length 1) ∧
      (∀ xs, Holds s a (.reals xs) → reports xs.length 2) ∧
      (∀ xs, Holds s a (.symbols xs) → reports xs.length 3) ∧
      (∀ xs, Holds s a (.indices xs) → reports xs.length 4) ∧
      (∀ xs, Holds s a (.mask xs) → reports xs.length 5) ∧
      (∀ chs, Holds s a (.chanSyms chs) → reports chs.toList.length 6) ∧
      (∀ bits, Holds s a (.packer bits) → reports bits.length 7) ∧
      (∀ st, Holds s a (.stream st) → reports st.rd 8) ∧
      (∀ tr, Holds s a (.tracker tr) → reports tr.rd 9) ∧
      (∀ c, Holds s a (.codec c) → reports c.blockLength 10) ∧
      (∀ m, Holds s a (.mod m) →
        reports (match m.body with
          | .bfsk _ => 1
          | .ofdm _ _ lanes => lanes.toList.length
          | .fhss _ _ lanes => lanes.toList.length) 11) ∧
      (∀ d, Holds s a (.dem d) →
        reports (match d.body with
          | .bfsk _ => 1
          | .ofdm _ _ chans => chans.toList.length
          | .fhss _ _ chans _ => chans.toList.length) 12))

/-- R215, R216, R110: an appended element, the values an element cannot hold, and a list that is full
(`CAPACITY`). -/
def Obligations.PushCommands : Prop :=
  ∀ (a : Handle) (b : IReg) (f : FReg) (s : State),
    (∀ xs, Holds s a (.bytes xs) → xs.length + 1 ≤ Config.params.maxElems →
      (s.getI b).toNat ≤ 255 → exec (.bufPushi a b) s =
        .next (afterOk (s.putObj a (.bytes (xs ++ [BitVec.ofNat 8 (s.getI b).toNat]))))) ∧
    (∀ xs, Holds s a (.symbols xs) → xs.length + 1 ≤ Config.params.maxElems →
      (s.getI b).toNat ≤ 255 → exec (.bufPushi a b) s =
        .next (afterOk (s.putObj a (.symbols (xs ++ [BitVec.ofNat 8 (s.getI b).toNat]))))) ∧
    (∀ xs, Holds s a (.indices xs) → xs.length + 1 ≤ Config.params.maxElems →
      exec (.bufPushi a b) s = .next (afterOk (s.putObj a (.indices (xs ++ [s.getI b]))))) ∧
    (∀ xs, Holds s a (.mask xs) → xs.length + 1 ≤ Config.params.maxElems →
      (s.getI b).toNat ≤ 1 → exec (.bufPushi a b) s =
        .next (afterOk (s.putObj a (.mask (xs ++ [decide ((s.getI b).toNat = 1)]))))) ∧
    (∀ xs, Holds s a (.bytes xs) ∨ Holds s a (.symbols xs) → 255 < (s.getI b).toNat →
      exec (.bufPushi a b) s = .next (afterFailure (.bufPushi a b) s .invalidValue)) ∧
    (∀ xs, Holds s a (.mask xs) → 1 < (s.getI b).toNat →
      exec (.bufPushi a b) s = .next (afterFailure (.bufPushi a b) s .invalidValue)) ∧
    (∀ xs, Holds s a (.bytes xs) ∨ Holds s a (.symbols xs) → Config.params.maxElems < xs.length + 1 →
      (s.getI b).toNat ≤ 255 →
      exec (.bufPushi a b) s = .next (afterFailure (.bufPushi a b) s .capacity)) ∧
    (∀ xs, Holds s a (.indices xs) → Config.params.maxElems < xs.length + 1 →
      exec (.bufPushi a b) s = .next (afterFailure (.bufPushi a b) s .capacity)) ∧
    (∀ xs, Holds s a (.mask xs) → Config.params.maxElems < xs.length + 1 → (s.getI b).toNat ≤ 1 →
      exec (.bufPushi a b) s = .next (afterFailure (.bufPushi a b) s .capacity)) ∧
    (∀ xs, Holds s a (.reals xs) → xs.length + 1 ≤ Config.params.maxElems →
      exec (.bufPushf a f) s = .next (afterOk (s.putObj a (.reals (xs ++ [s.getF f]))))) ∧
    (∀ xs, Holds s a (.reals xs) → Config.params.maxElems < xs.length + 1 →
      exec (.bufPushf a f) s = .next (afterFailure (.bufPushf a f) s .capacity))

/-- R217, R218, R110: reading one element, widened as its kind says, and an index past the end. -/
def Obligations.GetCommands : Prop :=
  ∀ (a : Handle) (b : IReg) (s : State),
    let j := (s.getI b).toNat
    (∀ xs (h : j < xs.length), Holds s a (.bytes xs) ∨ Holds s a (.symbols xs) →
      exec (.bufGeti a b) s = .next (afterOk (s.setR 0 (BitVec.ofNat 64 xs[j].toNat)))) ∧
    (∀ xs (h : j < xs.length), Holds s a (.indices xs) →
      exec (.bufGeti a b) s = .next (afterOk (s.setR 0 xs[j]))) ∧
    (∀ xs (h : j < xs.length), Holds s a (.mask xs) →
      exec (.bufGeti a b) s = .next (afterOk (s.setR 0 (BitVec.ofNat 64 xs[j].toNat)))) ∧
    (∀ xs (h : j < xs.length), Holds s a (.reals xs) →
      exec (.bufGetf a b) s = .next (afterOk (s.setRF 0 xs[j]))) ∧
    (∀ o, Holds s a o → o.kind ∈ intKinds → o.listLength ≤ j →
      exec (.bufGeti a b) s = .next (afterFailure (.bufGeti a b) s .invalidValue)) ∧
    (∀ xs, Holds s a (.reals xs) → xs.length ≤ j →
      exec (.bufGetf a b) s = .next (afterFailure (.bufGetf a b) s .invalidValue))

/-- R219 to R221: the tail of a list, and one channel of a channel-symbol object, copied to a fresh slot;
and a list appended to one of its kind, both read before the write, or `CAPACITY` where the two do not fit. -/
def Obligations.ListCommands : Prop :=
  (∀ (a b : Handle) (c : IReg) (s : State), Vacant s a →
      (0 ≤ (s.getI c).toInt →
        let n := (s.getI c).toInt.toNat
        let gives := fun (o : Obj) => exec (.bufSlice a b c) s = .next (afterOk (s.putObj a o))
        (∀ xs, Holds s b (.bytes xs) → (xs.drop n).length ≤ Config.params.maxElems →
          gives (.bytes (xs.drop n))) ∧
        (∀ xs, Holds s b (.reals xs) → (xs.drop n).length ≤ Config.params.maxElems →
          gives (.reals (xs.drop n))) ∧
        (∀ xs, Holds s b (.symbols xs) → (xs.drop n).length ≤ Config.params.maxElems →
          gives (.symbols (xs.drop n))) ∧
        (∀ xs, Holds s b (.indices xs) → (xs.drop n).length ≤ Config.params.maxElems →
          gives (.indices (xs.drop n))) ∧
        (∀ xs, Holds s b (.mask xs) → (xs.drop n).length ≤ Config.params.maxElems →
          gives (.mask (xs.drop n)))) ∧
      (∀ o, Holds s b o → o.kind ∈ listKinds → (s.getI c).toInt < 0 →
        exec (.bufSlice a b c) s = .next (afterFailure (.bufSlice a b c) s .invalidValue)) ∧
      (∀ chs (h : (s.getI c).toNat < chs.toList.length), Holds s b (.chanSyms chs) →
        (chs.toList[(s.getI c).toNat]).length ≤ Config.params.maxElems →
        exec (.chGet a b c) s = .next (afterOk (s.putObj a (.symbols chs.toList[(s.getI c).toNat])))) ∧
      (∀ chs, Holds s b (.chanSyms chs) → chs.toList.length ≤ (s.getI c).toNat →
        exec (.chGet a b c) s = .next (afterFailure (.chGet a b c) s .invalidValue))) ∧
  (∀ (a b : Handle) (s : State),
      (∀ xs ys, Holds s a (.bytes xs) → Holds s b (.bytes ys) →
        (xs ++ ys).length ≤ Config.params.maxElems →
        exec (.bufConcat a b) s = .next (afterOk (s.putObj a (.bytes (xs ++ ys))))) ∧
      (∀ xs ys, Holds s a (.reals xs) → Holds s b (.reals ys) →
        (xs ++ ys).length ≤ Config.params.maxElems →
        exec (.bufConcat a b) s = .next (afterOk (s.putObj a (.reals (xs ++ ys))))) ∧
      (∀ xs ys, Holds s a (.symbols xs) → Holds s b (.symbols ys) →
        (xs ++ ys).length ≤ Config.params.maxElems →
        exec (.bufConcat a b) s = .next (afterOk (s.putObj a (.symbols (xs ++ ys))))) ∧
      (∀ xs ys, Holds s a (.indices xs) → Holds s b (.indices ys) →
        (xs ++ ys).length ≤ Config.params.maxElems →
        exec (.bufConcat a b) s = .next (afterOk (s.putObj a (.indices (xs ++ ys))))) ∧
      (∀ xs ys, Holds s a (.mask xs) → Holds s b (.mask ys) →
        (xs ++ ys).length ≤ Config.params.maxElems →
        exec (.bufConcat a b) s = .next (afterOk (s.putObj a (.mask (xs ++ ys))))) ∧
      let full := exec (.bufConcat a b) s = .next (afterFailure (.bufConcat a b) s .capacity)
      (∀ xs ys, Holds s a (.bytes xs) → Holds s b (.bytes ys) →
        Config.params.maxElems < (xs ++ ys).length → full) ∧
      (∀ xs ys, Holds s a (.reals xs) → Holds s b (.reals ys) →
        Config.params.maxElems < (xs ++ ys).length → full) ∧
      (∀ xs ys, Holds s a (.symbols xs) → Holds s b (.symbols ys) →
        Config.params.maxElems < (xs ++ ys).length → full) ∧
      (∀ xs ys, Holds s a (.indices xs) → Holds s b (.indices ys) →
        Config.params.maxElems < (xs ++ ys).length → full) ∧
      (∀ xs ys, Holds s a (.mask xs) → Holds s b (.mask ys) →
        Config.params.maxElems < (xs ++ ys).length → full))

/-! ### BitIO -/

/-- R250 to R253: the Packer's commands, with `CAPACITY` above `8 * MAX_ELEMS` bits; and R102, R254: what the
bit helpers they use give, bit by bit: the first bit of a byte, of a number and of a field is the most
significant, and a partial last byte is padded with zeros. -/
def Obligations.PackerCommands : Prop :=
  (∀ (a b : Handle) (v w : IReg) (s : State),
    (Vacant s a → exec (.pkNew a) s = .next (afterOk (s.putObj a (.packer [])))) ∧
    (∀ bits, Holds s a (.packer bits) → 0 < (s.getI w).toInt → (s.getI w).toInt ≤ 64 →
      (s.getI v).toNat < 2 ^ (s.getI w).toInt.toNat →
      bits.length + (s.getI w).toInt.toNat ≤ 8 * Config.params.maxElems →
      exec (.pkWrbits a v w) s = .next (afterOk
        (s.putObj a (.packer (bits ++ fieldBits (s.getI v).toNat (s.getI w).toInt.toNat))))) ∧
    (∀ bits, Holds s a (.packer bits) → 64 < (s.getI w).toInt →
      bits.length + (s.getI w).toInt.toNat ≤ 8 * Config.params.maxElems →
      exec (.pkWrbits a v w) s = .next (afterOk
        (s.putObj a (.packer (bits ++ List.replicate ((s.getI w).toInt.toNat - 64) false
          ++ fieldBits (s.getI v).toNat 64))))) ∧
    (∀ bits, Holds s a (.packer bits) → (s.getI w).toInt ≤ 0 →
      exec (.pkWrbits a v w) s = .next (afterFailure (.pkWrbits a v w) s .invalidWidth)) ∧
    (∀ bits, Holds s a (.packer bits) → 0 < (s.getI w).toInt →
      2 ^ (s.getI w).toInt.toNat ≤ (s.getI v).toNat →
      exec (.pkWrbits a v w) s = .next (afterFailure (.pkWrbits a v w) s .invalidValue)) ∧
    (∀ bits bs, Holds s a (.packer bits) → Holds s b (.bytes bs) →
      bits.length + 8 * bs.length ≤ 8 * Config.params.maxElems →
      exec (.pkWrbytes a b) s = .next (afterOk (s.putObj a (.packer (bits ++ bytesToBits bs))))) ∧
    (∀ bits, Holds s a (.packer bits) → 0 < (s.getI w).toInt →
      (s.getI v).toNat < 2 ^ (s.getI w).toInt.toNat →
      8 * Config.params.maxElems < bits.length + (s.getI w).toInt.toNat →
      exec (.pkWrbits a v w) s = .next (afterFailure (.pkWrbits a v w) s .capacity)) ∧
    (∀ bits bs, Holds s a (.packer bits) → Holds s b (.bytes bs) →
      8 * Config.params.maxElems < bits.length + 8 * bs.length →
      exec (.pkWrbytes a b) s = .next (afterFailure (.pkWrbytes a b) s .capacity)) ∧
    (∀ bits, Vacant s a → Holds s b (.packer bits) → bits.length ≤ 8 * Config.params.maxElems →
      exec (.pkFlush a b) s = .next (afterOk (s.putObj a (.bytes (packBytes bits)))))) ∧
  (∀ (b : Byte) (bs : List Byte), (byteBits b).length = 8 ∧ (bytesToBits bs).length = 8 * bs.length ∧
    ∀ i, i < 8 → (byteBits b)[i]? = some (b.getLsbD (7 - i)) ∧
      ∀ j, (bytesToBits bs)[8 * j + i]? = bs[j]?.map fun x => x.getLsbD (7 - i)) ∧
  (∀ xs : List Bool, (packBytes xs).length = (xs.length + 7) / 8 ∧
    ∀ (j i : Nat) (x : Byte), (packBytes xs)[j]? = some x → i < 8 →
      x.getLsbD (7 - i) = xs.getD (8 * j + i) false) ∧
  natOfBits [] = 0 ∧
  (∀ (x : Bool) (xs : List Bool),
    natOfBits (x :: xs) = (if x then 2 ^ xs.length else 0) + natOfBits xs) ∧
  (∀ v w : Nat, (fieldBits v w).length = w ∧
    ∀ j, j < w → (fieldBits v w)[j]? = some (decide (v / 2 ^ (w - 1 - j) % 2 = 1)))

/-- R260, R266, R267: a Stream is made over a source and not copied, and is inspected without being
consumed. -/
def Obligations.StreamInspection : Prop :=
  ∀ (a b : Handle) (s : State),
    (∀ (m : Bool) xs, Vacant s a → SourceBits s b xs →
      exec (.stNew a b m) s = .next (afterOk (s.putObj a (.stream ⟨b, m, 0⟩)))) ∧
    (∀ st bs, Holds s a (.stream st) → Vacant s b → Holds s st.src (.bytes bs) →
      bs.length ≤ Config.params.maxElems →
      exec (.stPeek a b) s = .next (afterOk
        (((s.setRNat 0 st.rd).setRNat 1 (8 * bs.length)).putObj b (.bytes bs)))) ∧
    (∀ st bits, Holds s a (.stream st) → Vacant s b → Holds s st.src (.packer bits) →
      bits.length ≤ 8 * Config.params.maxElems →
      exec (.stPeek a b) s = .next (afterOk
        (((s.setRNat 0 st.rd).setRNat 1 bits.length).putObj b (.bytes (packBytes bits))))) ∧
    (∀ st xs, Holds s a (.stream st) → SourceBits s st.src xs → st.circular = false →
      exec (.stRemain a) s = .next (afterOk ((s.setRNat 0 (xs.length - st.rd)).setR 1 0))) ∧
    (∀ st xs, Holds s a (.stream st) → SourceBits s st.src xs → st.circular = true → xs ≠ [] →
      exec (.stRemain a) s =
        .next (afterOk ((s.setR 0 0xFFFFFFFFFFFFFFFF).setR 1 1))) ∧
    (∀ st, Holds s a (.stream st) → SourceBits s st.src [] → st.circular = true →
      exec (.stRemain a) s = .next (afterFailure (.stRemain a) s .emptyCircular))

/-- R262, R263: ST_RDBITS of a linear Stream gives the next bits, at most what is left, and of a circular
one the bits at the positions modulo the source's length; bytes beyond `MAX_ELEMS` raise `CAPACITY`. -/
def Obligations.StreamReadBits : Prop :=
  ∀ (a b : Handle) (c : IReg) (st : Stream) (xs : List Bool) (s : State),
    Holds s a (.stream st) → Vacant s b → SourceBits s st.src xs →
    let n := (s.getI c).toInt.toNat
    let k := min n (xs.length - st.rd)
    let i : Instr := .stRdbits a b c
    (0 < (s.getI c).toInt → st.circular = false →
      let t := ((s.putObj b (.bytes (packBytes ((xs.drop st.rd).take k)))).putObj a
        (.stream { st with rd := st.rd + k })).setRNat 0 k
      exec i s = .next (if Config.params.maxElems < (k + 7) / 8 then afterFailure i s .capacity
        else if k < n then afterStatus (headerWord i) t 2 else afterOk t)) ∧
    (0 < (s.getI c).toInt → st.circular = true → xs ≠ [] →
      let bits := (List.range n).map fun j => xs.getD ((st.rd + j) % xs.length) false
      exec i s = .next (if Config.params.maxElems < (n + 7) / 8 then afterFailure i s .capacity
        else afterOk (((s.putObj b (.bytes (packBytes bits))).putObj a
          (.stream { st with rd := st.rd + n })).setRNat 0 n))) ∧
    (0 < (s.getI c).toInt → st.circular = true → xs = [] →
      exec i s = .next (afterFailure i s .emptyCircular)) ∧
    ((s.getI c).toInt ≤ 0 → exec i s = .next (afterFailure i s .invalidWidth))

/-- R264, R265: ST_RDU and ST_RDS of a linear Stream, the bits read, then zeros, as an `n`-bit value that
is zero-extended or sign-extended; and of a circular Stream, whose read is always whole. -/
def Obligations.StreamReadIntegers : Prop :=
  ∀ (a : Handle) (b c : IReg) (st : Stream) (xs : List Bool) (s : State),
    Holds s a (.stream st) → SourceBits s st.src xs →
    let n := (s.getI c).toInt.toNat
    let k := min n (xs.length - st.rd)
    let v := natOfBits ((xs.drop st.rd).take k ++ List.replicate (n - k) false)
    let done := fun (i : Instr) (x : Bits64) =>
      let t := ((s.setI b x).setRNat 0 k).putObj a (.stream { st with rd := st.rd + k })
      if k < n then afterStatus (headerWord i) t 2 else afterOk t
    (1 ≤ (s.getI c).toInt → (s.getI c).toInt ≤ 32 → st.circular = false →
      exec (.stRdu a b c) s = .next (done (.stRdu a b c) ((BitVec.ofNat n v).setWidth 64)) ∧
      exec (.stRds a b c) s = .next (done (.stRds a b c) ((BitVec.ofNat n v).signExtend 64))) ∧
    (1 ≤ (s.getI c).toInt → (s.getI c).toInt ≤ 32 → st.circular = true → xs ≠ [] →
      let y := BitVec.ofNat n (natOfBits
        ((List.range n).map fun j => xs.getD ((st.rd + j) % xs.length) false))
      let st' : Obj := .stream { st with rd := st.rd + n }
      exec (.stRdu a b c) s =
        .next (afterOk (((s.setI b (y.setWidth 64)).setRNat 0 n).putObj a st')) ∧
      exec (.stRds a b c) s =
        .next (afterOk (((s.setI b (y.signExtend 64)).setRNat 0 n).putObj a st'))) ∧
    (1 ≤ (s.getI c).toInt → (s.getI c).toInt ≤ 32 → st.circular = true → xs = [] →
      exec (.stRdu a b c) s = .next (afterFailure (.stRdu a b c) s .emptyCircular) ∧
      exec (.stRds a b c) s = .next (afterFailure (.stRds a b c) s .emptyCircular)) ∧
    ((s.getI c).toInt < 1 ∨ 32 < (s.getI c).toInt →
      exec (.stRdu a b c) s = .next (afterFailure (.stRdu a b c) s .invalidWidth) ∧
      exec (.stRds a b c) s = .next (afterFailure (.stRds a b c) s .invalidWidth))

/-- R269: reading a byte list through a linear Stream in any widths that add up to its bits gives those bits
in order, each read complete; and the fields of any widths that partition its bits, written one after
another, flush to it. -/
def Obligations.BitioRoundTrip : Prop :=
  ∀ (src : Handle) (bs : List Byte) (ws : List Nat), ws.sum = 8 * bs.length →
    (∃ rs, readSequence (bytesToBits bs) ⟨src, false, 0⟩ ws = .ok rs ∧
      rs.flatMap StreamRead.bits = bytesToBits bs ∧ rs.map StreamRead.count = ws) ∧
    packBytes ((slicesOf (bytesToBits bs) ws).flatMap fun xs =>
      fieldBits (natOfBits xs) xs.length) = bs

/-- R270: the `j`-th read of `n` bits of a circular Stream gives the bits at positions `(j*n + t) mod L`. -/
def Obligations.CircularPeriodicity : Prop :=
  ∀ (src : Handle) (xs : List Bool) (n m : Nat), xs ≠ [] →
    ∃ rs, readSequence xs ⟨src, true, 0⟩ (List.replicate m n) = .ok rs ∧ rs.length = m ∧
      ∀ j (h : j < rs.length),
        rs[j].bits = (List.range n).map fun t => xs.getD ((j * n + t) % xs.length) false

/-! ### Symbol tracker -/

/-- R300, R301, R302: a Tracker gives whole symbols one by one and discards a partial one, and TRK_TOLIST
gives all the whole symbols at once, or `CAPACITY` where they do not fit. -/
def Obligations.TrackerCommands : Prop :=
  ∀ (a b : Handle) (r c : IReg) (xs : List Bool) (s : State),
    let w := (s.getI c).toInt.toNat
    (Vacant s a → SourceBits s b xs → 1 ≤ (s.getI c).toInt → (s.getI c).toInt ≤ 8 →
      exec (.trkNew a b c) s =
        .next (afterOk (s.putObj a (.tracker ⟨b, (s.getI c).toInt.toNat, 0⟩)))) ∧
    (∀ tr, Holds s a (.tracker tr) → SourceBits s tr.src xs → tr.rd + tr.bps ≤ xs.length →
      exec (.trkNext a r) s = .next (afterOk
        (((s.setI r (BitVec.ofNat 64 (natOfBits ((xs.drop tr.rd).take tr.bps)))).putObj a
          (.tracker { tr with rd := tr.rd + tr.bps })).setR 0 1))) ∧
    (∀ tr, Holds s a (.tracker tr) → SourceBits s tr.src xs → xs.length < tr.rd + tr.bps →
      exec (.trkNext a r) s = .next (afterStatus (headerWord (.trkNext a r))
        ((s.putObj a (.tracker { tr with rd := max tr.rd xs.length })).setR 0 0) 2)) ∧
    (Vacant s a → SourceBits s b xs → 1 ≤ (s.getI c).toInt → (s.getI c).toInt ≤ 8 →
      xs.length / w ≤ Config.params.maxElems →
      exec (.trkTolist a b c) s = .next (afterOk
        ((s.putObj a (.symbols ((List.range (xs.length / w)).map fun j =>
          BitVec.ofNat 8 (natOfBits ((xs.drop (j * w)).take w))))).setRNat 0 (xs.length / w)))) ∧
    (Vacant s a → SourceBits s b xs → 1 ≤ (s.getI c).toInt → (s.getI c).toInt ≤ 8 →
      Config.params.maxElems < xs.length / w →
      exec (.trkTolist a b c) s = .next (afterFailure (.trkTolist a b c) s .capacity)) ∧
    (Vacant s a → SourceBits s b xs → (s.getI c).toInt < 1 ∨ 8 < (s.getI c).toInt →
      exec (.trkNew a b c) s = .next (afterFailure (.trkNew a b c) s .invalidWidth) ∧
      exec (.trkTolist a b c) s = .next (afterFailure (.trkTolist a b c) s .invalidWidth))

/-! ### Block codecs -/

/-- R320, R330, R342: codecs are made with their lengths, where the Reed-Solomon port accepts them, and
report them. -/
def Obligations.CodecObjects : Prop :=
  ∀ (a : Handle) (b c : IReg) (s : State),
    let bl := (s.getI b).toInt
    let ml := (s.getI c).toInt
    (Vacant s a → exec (.codecMan a) s = .next (afterOk (s.putObj a (.codec ⟨.manchester, 2, 1⟩)))) ∧
    (Vacant s a → 0 < bl → 0 < ml → bl % 8 = 0 → ml % 8 = 0 →
      exec (.codecRs a b c) s = .next
        (if Config.params.rsAccepts (bl.toNat / 8) (ml.toNat / 8) = true
          then afterOk (s.putObj a (.codec ⟨.rs, bl.toNat, ml.toNat⟩))
          else afterFailure (.codecRs a b c) s .constructionError)) ∧
    (Vacant s a → bl ≤ 0 ∨ ml ≤ 0 ∨ bl % 8 ≠ 0 ∨ ml % 8 ≠ 0 →
      exec (.codecRs a b c) s = .next (afterFailure (.codecRs a b c) s .configurationError)) ∧
    (∀ cd, Holds s a (.codec cd) → exec (.codecInfo a) s = .next (afterOk
      (((s.setRNat 0 cd.blockLength).setRNat 1 cd.messageLength).setR 2
        (if cd.ckind = .manchester then 0 else 1))))

/-- R321, R331, R340: CODEC_ENC writes the encoded bytes and their number; block `j` of a Reed-Solomon code
is the codec's for the `j`-th message block, zero-padded where it is short. More than `MAX_ELEMS` bytes raise
`CAPACITY`. -/
def Obligations.Encoding : Prop :=
  ∀ (a b c : Handle) (cd : Codec) (bs : List Byte) (s : State),
    Vacant s a → Holds s b (.codec cd) → Holds s c (.bytes bs) →
    (cd.ckind = .manchester → 2 * bs.length ≤ Config.params.maxElems →
      exec (.codecEnc a b c) s = .next (afterOk
        ((s.putObj a (.bytes (manEnc bs))).setRNat 0 (2 * bs.length)))) ∧
    (cd.ckind = .manchester → Config.params.maxElems < 2 * bs.length →
      exec (.codecEnc a b c) s = .next (afterFailure (.codecEnc a b c) s .capacity)) ∧
    (cd.ckind = .rs →
      let n := cd.blockLength / 8
      let k := cd.messageLength / 8
      let q := (bs.length + k - 1) / k
      (n * q ≤ Config.params.maxElems →
        ∃ out, exec (.codecEnc a b c) s =
            .next (afterOk ((s.putObj a (.bytes out)).setRNat 0 (n * q))) ∧
          out.length = n * q ∧
          ∀ j, j < q →
            let block := (bs.drop (j * k)).take k
            (out.drop (j * n)).take n =
              rsEncode Config.params n k (block ++ List.replicate (k - block.length) 0)) ∧
      (Config.params.maxElems < n * q →
        exec (.codecEnc a b c) s = .next (afterFailure (.codecEnc a b c) s .capacity)))

/-- R322, R341: CODEC_DEC of a Manchester codec, with and without a mask; a mask has a flag for each output
byte at least afterwards, set where it was set before or its byte holds a substituted bit. The decoding,
position by position: a pair of unlike bits decodes to its first bit, a pair of like bits to 1 and is reported,
once and in order; a last half byte is padded with zeros. An output above `MAX_ELEMS` raises `CAPACITY`. -/
def Obligations.ManchesterDecoding : Prop :=
  (∀ (a b c d : Handle) (cd : Codec) (bs : List Byte) (mk : Option (List Bool)) (s : State),
    Vacant s a → Holds s b (.codec cd) → cd.ckind = .manchester → Holds s c (.bytes bs) →
    OptionalMask s d mk →
    let i : Instr := .codecDec a b c d
    let out := (manDec bs).1
    let bad := (manDec bs).2
    let s1 := match mk with
      | none => s
      | some xs => s.putObj d (.mask (markMask xs out.length bad))
    let t := ((s1.putObj a (.bytes out)).setRNat 0 bad.length).setRNat 1 (4 * bs.length)
    ((bs.length + 1) / 2 ≤ Config.params.maxElems →
      exec i s = .next (if bad = [] then afterOk t else afterStatus (headerWord i) t 1)) ∧
    (Config.params.maxElems < (bs.length + 1) / 2 → exec i s = .next (afterFailure i s .capacity)) ∧
    ∀ xs, mk = some xs →
      (markMask xs out.length bad).length = max xs.length out.length ∧
      ∀ q, (markMask xs out.length bad).getD q false = true ↔
        xs.getD q false = true ∨ ∃ j ∈ bad, j / 8 = q) ∧
  (∀ bs : List Byte,
    let bit := fun i => (bytesToBits bs).getD i false
    let out := (manDec bs).1
    let bad := (manDec bs).2
    out.length = (bs.length + 1) / 2 ∧ bad.Pairwise (· < ·) ∧
    (∀ j, j ∈ bad ↔ j < 4 * bs.length ∧ bit (2 * j) = bit (2 * j + 1)) ∧
    ∀ j, j < 8 * out.length → (bytesToBits out)[j]? = some (decide (j < 4 * bs.length) &&
      (bit (2 * j) || bit (2 * j) == bit (2 * j + 1))))

/-- R22, R332, R335, R341: CODEC_DEC of a Reed-Solomon codec reads the mask as erasures and never writes it,
zero-fills uncorrectable blocks and counts them, and zero-pads, drops or refuses a short last block as the
tail policy says; an output above `MAX_ELEMS` raises `CAPACITY`; and no byte at an erased position reaches the
codec, although V-RS-4 expects one back (log entry 12). That a flag at a zero-padded position of the last block is an erasure is the model's reading
(log entry 19). -/
def Obligations.ReedSolomonDecoding : Prop :=
  (∀ (a b c d : Handle) (cd : Codec) (bs : List Byte) (mk : Option (List Bool)) (s : State),
    Vacant s a → Holds s b (.codec cd) → cd.ckind = .rs → Holds s c (.bytes bs) →
    OptionalMask s d mk →
    let P := Config.params
    let n := cd.blockLength / 8
    let k := cd.messageLength / 8
    let i : Instr := .codecDec a b c d
    let decoded := fun (blocks : List (List Byte)) =>
      let ms := blocks.mapIdx fun j x => rsDecode P n k x
        ((List.range n).filter fun p => (mk.getD []).getD (j * n + p) false)
      let t := ((s.putObj a (.bytes (ms.flatMap fun m => m.getD (List.replicate k 0)))).setRNat 0
        (ms.countP Option.isNone)).setRNat 1 blocks.length
      if P.maxElems < k * blocks.length then afterFailure i s .capacity
      else if ms.countP Option.isNone = 0 then afterOk t else afterStatus (headerWord i) t 1
    let full := (List.range (bs.length / n)).map fun j => (bs.drop (j * n)).take n
    let tail := bs.drop (bs.length / n * n)
    (bs.length % n = 0 → exec i s = .next (decoded full)) ∧
    (bs.length % n ≠ 0 →
      exec i s = .next (match P.rsTailPolicy with
        | .padZero => decoded (full ++ [tail ++ List.replicate (n - tail.length) 0])
        | .drop => decoded full
        | .fault => afterFailure i s .invalidValue))) ∧
  (∀ (P : Params) (n k : Nat) (x y : List Byte) (erased : List Nat), x.length = y.length →
    (∀ p, p ∉ erased → x[p]? = y[p]?) →
    rsDecode P n k x erased = rsDecode P n k y erased ∧
      ∀ m, rsDecode P n k x erased = some m → m.length = k)

/-- R323: Manchester decoding undoes encoding and reports nothing, and a pair `00` or `11` at decoded bit
`j` gives a 1 there and reports `j`. -/
def Obligations.ManchesterLaws : Prop :=
  (∀ bs : List Byte, manDec (manEnc bs) = (bs, [])) ∧
  (∀ (bs : List Byte) (j : Nat), j < 4 * bs.length →
    (bytesToBits bs)[2 * j]? = (bytesToBits bs)[2 * j + 1]? →
    (bytesToBits (manDec bs).1)[j]? = some true ∧ j ∈ (manDec bs).2)

/-- R321: the Manchester code has two bytes for each, and its bits are the two bits of each input bit. -/
def Obligations.ManchesterEncoding : Prop :=
  (∀ bs : List Byte, (manEnc bs).length = 2 * bs.length ∧
    bytesToBits (manEnc bs) = (bytesToBits bs).flatMap fun x =>
      if x then [true, false] else [false, true]) ∧
  manEnc [0xA5] = [0x99, 0x66]

/-! ### Carriers and modulators -/

/-- R360: CARRIERS tiles the band of three number registers; which of the three outcomes it is depends on
the number format (R7). -/
def Obligations.CarriersCommand : Prop :=
  ∀ (a : Handle) (b : FReg) (s : State), b.val ≤ 13 → Vacant s a →
    let P := Config.params
    let mn := s.getF b
    let mx := s.getF (blockReg b 1)
    let bw := s.getF (blockReg b 2)
    exec (.carriers a b) s = .next
      (if P.num.isFinite mn && P.num.isFinite mx && P.num.isFinite bw && P.num.gt bw (P.num.ofInt 0) then
        match tile P mn mx bw with
        | .ok cs => afterOk ((s.putObj a (.reals cs)).setRNat 0 cs.length)
        | .error e => afterFailure (.carriers a b) s e
      else afterFailure (.carriers a b) s .invalidValue)

/-- R361: the centres start at `min + bw/2` and step by `bw`; each band ends at or below `max`, and the
next one would not. These are the centres `tile` answers where there are at most `MAX_ELEMS` of them, and it
raises `CAPACITY` exactly where one more fits. -/
def Obligations.TilingLaws : Prop :=
  ∀ (P : Params) (mn mx bw : Number),
    let N := P.num
    let half := N.div bw (N.ofInt 2)
    (∀ cs, tile P mn mx bw = .ok cs →
      cs.length ≤ P.maxElems ∧
      (∀ c ∈ cs, N.le (N.add c half) mx = true) ∧
      (cs.head? = some (N.add mn half) ∨ (cs = [] ∧ N.le (N.add (N.add mn half) half) mx = false)) ∧
      (∀ j (h : j + 1 < cs.length), cs[j + 1] = N.add cs[j] bw) ∧
      (∀ c, cs.getLast? = some c → N.le (N.add (N.add c bw) half) mx = false)) ∧
    (∀ e, tile P mn mx bw = .error e → e = .capacity) ∧
    (let centre := fun j => (fun c => N.add c bw)^[j] (N.add mn half)
      let fits := fun j => N.le (N.add (centre j) half) mx
      (∀ n, n ≤ P.maxElems → (∀ j, j < n → fits j = true) → fits n = false →
        tile P mn mx bw = .ok ((List.range n).map centre)) ∧
      (tile P mn mx bw = .error .capacity ↔ ∀ j, j ≤ P.maxElems → fits j = true))

/-- R362 to R364: MOD_NEW of a BFSK modulator, from the configuration; which outcome it is depends on the
number format and the planner (R7, R14). -/
def Obligations.ModNewBfsk : Prop :=
  ∀ (a : Handle) (s : State), Vacant s a →
    let P := Config.params
    let g := s.cfg
    let sps := g.sps.toInt.toNat
    let rate := g.srate.toInt.toNat
    exec (.modNew a .bfsk) s = .next
      (if g.bps.toInt = 1 ∧ 1 ≤ g.srate.toInt ∧ 1 ≤ g.sps.toInt ∧ 1 ≤ g.expf.toInt
          ∧ P.num.isFinite g.carrier = true then
        match P.planFSK sps rate g.carrier g.sepi.toInt with
        | none => afterFailure (.modNew a .bfsk) s .constructionError
        | some p => afterOk ((s.putObj a (.mod ⟨sps, rate, g.expf.toInt.toNat, g.sepi.toInt,
            .bfsk ⟨g.carrier, p.f0, p.f1, p.deltaF, p.bw⟩⟩)).setRNat 0 1)
      else afterFailure (.modNew a .bfsk) s .configurationError)

/-- R362, R363, R410: MOD_NEW and DEM_NEW place the instance their configuration builds and report its
channels; an illegal configuration raises `CONFIGURATION_ERROR`, and a legal one from which nothing can be
built `CONSTRUCTION_ERROR`, or `CAPACITY` where its tiling does. R411 to R414, R416: DEM_NEW of a BFSK
demodulator, port by port. Which outcome it is depends on the number format, the planner and the filter
design (R7, R14, R16, R17). -/
def Obligations.InstanceCreation : Prop :=
  let shared := fun (N : NumOps) (g : Cfg) (m : ModKind) =>
    decide (g.bps.toInt = 1 ∧ 1 ≤ g.srate.toInt ∧ 1 ≤ g.sps.toInt) && match m with
      | .bfsk => N.isFinite g.carrier
      | .ofdm => decide (1 ≤ g.bwdiv.toInt) && N.isFinite g.fmin && N.isFinite g.fmax
      | .fhss => decide (1 ≤ g.bwdiv.toInt) && N.isFinite g.fmin && N.isFinite g.fmax
  let modLegal := fun (N : NumOps) (g : Cfg) (m : ModKind) => shared N g m && decide (1 ≤ g.expf.toInt)
  let demLegal := fun (N : NumOps) (g : Cfg) (m : ModKind) =>
    shared N g m && decide (1 ≤ g.dsps.toInt ∧ g.dsps.toInt ≤ 2 * g.sps.toInt)
  (∀ (a : Handle) (m : ModKind) (s : State), Vacant s a →
    let P := Config.params
    exec (.modNew a m) s = .next
      (if modLegal P.num s.cfg m then
        match buildMod P s.cfg m with
        | .ok md => afterOk ((s.putObj a (.mod md)).setRNat 0 (match md.body with
          | .bfsk _ => 1
          | .ofdm _ _ lanes => lanes.toList.length
          | .fhss _ _ lanes => lanes.toList.length))
        | .error e => afterFailure (.modNew a m) s e
      else afterFailure (.modNew a m) s .configurationError) ∧
    exec (.demNew a m) s = .next
      (if demLegal P.num s.cfg m then
        match buildDem P s.cfg m with
        | .ok d => afterOk ((s.putObj a (.dem d)).setRNat 0 (match d.body with
          | .bfsk _ => 1
          | .ofdm _ _ chans => chans.toList.length
          | .fhss _ _ chans _ => chans.toList.length))
        | .error e => afterFailure (.demNew a m) s e
      else afterFailure (.demNew a m) s .configurationError)) ∧
  (∀ (P : Params) (g : Cfg) (m : ModKind) (e : Failure),
    (modLegal P.num g m ∧ buildMod P g m = .error e) ∨ (demLegal P.num g m ∧ buildDem P g m = .error e) →
    e = .constructionError ∨ e = .capacity ∧ m ≠ .bfsk ∧
      ∃ base, P.planFSK g.sps.toInt.toNat g.srate.toInt.toNat (P.num.ofInt 0) g.sepi.toInt = some base ∧
        tile P g.fmin g.fmax (P.num.div base.bw (P.num.ofInt g.bwdiv.toInt)) = .error .capacity) ∧
  (∀ (a : Handle) (s : State), Vacant s a →
    let P := Config.params
    let N := P.num
    let g := s.cfg
    let sps := g.sps.toInt.toNat
    let rate := g.srate.toInt.toNat
    let dsps := g.dsps.toInt.toNat
    exec (.demNew a .bfsk) s = .next
      (if g.bps.toInt = 1 ∧ 1 ≤ g.srate.toInt ∧ 1 ≤ g.sps.toInt ∧ 1 ≤ g.dsps.toInt
          ∧ g.dsps.toInt ≤ 2 * g.sps.toInt ∧ N.isFinite g.carrier = true then
        match P.planFSK sps rate g.carrier g.sepi.toInt with
        | none => afterFailure (.demNew a .bfsk) s .constructionError
        | some p =>
          let tones : ToneSet := ⟨g.carrier, p.f0, p.f1, p.deltaF, p.bw⟩
          let ctx : DesignCtx := ⟨sps, rate, dsps, tones, none⟩
          let att := P.plan.demodAtt ctx
          let env := P.plan.envLP ctx
          let bp := fun (tone : Number) => designBP P ⟨N.sub (N.sub tone p.deltaF) p.bw,
            N.sub tone p.deltaF, N.add tone p.deltaF, N.add (N.add tone p.deltaF) p.bw, att.1, att.2,
            N.ofInt rate⟩
          let t0 := N.add g.carrier p.f0
          let t1 := N.add g.carrier p.f1
          match bp t0, bp t1, designLP P (P.plan.interpLP ctx),
            designLP P ⟨p.bw, env.stop, env.passAtt, env.stopAtt, env.rateArg⟩,
            designLP P (P.plan.smoothLP ctx) with
          | some bp0, some bp1, some lpi, some lpe, some lp6 =>
            afterOk ((s.putObj a (.dem ⟨sps, rate, dsps, g.sepi.toInt, g.gthresh, 2 * sps / dsps,
              2 * dsps, dsps, .bfsk ⟨⟨tones, t0, t1, bp0, bp1, P.groupDelay bp0, P.groupDelay bp1, lpi,
                lpe⟩, lp6⟩⟩)).setRNat 0 1)
          | _, _, _, _, _ => afterFailure (.demNew a .bfsk) s .constructionError
      else afterFailure (.demNew a .bfsk) s .configurationError))

/-- R363 to R366, R375: when MOD_NEW can build an OFDM or an FHSS modulator, and what it is then built of:
the planned base, the sub-band width, one sub-modulator for each centre of the tiling in its order, and for
OFDM one bandpass filter for each. -/
def Obligations.OfdmModulatorFields : Prop :=
  ∀ (P : Params) (g : Cfg) (m : Modulator),
    let N := P.num
    let legal := g.bps.toInt = 1 ∧ 1 ≤ g.srate.toInt ∧ 1 ≤ g.sps.toInt ∧ 1 ≤ g.expf.toInt ∧
      1 ≤ g.bwdiv.toInt ∧ N.isFinite g.fmin = true ∧ N.isFinite g.fmax = true
    let copied := m.sps = g.sps.toInt.toNat ∧ m.rate = g.srate.toInt.toNat ∧
      m.expf = g.expf.toInt.toNat ∧ m.sepi = g.sepi.toInt
    let bands := fun (base : Plan) (width : Number) (centres : List Number) =>
      P.planFSK m.sps m.rate (N.ofInt 0) m.sepi = some base ∧
      width = N.div base.bw (N.ofInt g.bwdiv.toInt) ∧
      N.isFinite width = true ∧ N.gt width (N.ofInt 0) = true ∧
      tile P g.fmin g.fmax width = .ok centres
    let planned := fun (q : ToneSet) =>
      P.planFSK m.sps m.rate q.carrier m.sepi = some ⟨q.f0, q.f1, q.deltaF, q.bw⟩
    (buildMod P g .ofdm = .ok m ↔ legal ∧ copied ∧ ∃ base width lanes, m.body = .ofdm base width lanes ∧
      bands base width (lanes.toList.map fun l => l.tones.carrier) ∧
      ∀ l ∈ lanes.toList, planned l.tones ∧
        designBP P (P.plan.ofdmBand ⟨m.sps, m.rate, ⟨l.tones.carrier, width⟩, l.tones⟩) = some l.filt) ∧
    (buildMod P g .fhss = .ok m ↔ legal ∧ copied ∧ ∃ base width lanes, m.body = .fhss base width lanes ∧
      bands base width (lanes.toList.map fun q => q.carrier) ∧ ∀ q ∈ lanes.toList, planned q)

/-- R370, R112: MOD_RUN appends the modulated samples to the output and reports their number; an FHSS
instance takes one draw for each symbol and the others none (that draws are counted in `hopDraws` is the
model's choice, log entry 4); a symbol above 1 is refused. An empty payload and no sentinel append nothing,
for every kind of instance (that this overrides R372 for OFDM is the model's reading, log entry 20). -/
def Obligations.ModRunCommand : Prop :=
  ∀ (a b c d : Handle) (out0 : List Number) (m : Modulator) (syms sent : List Byte) (s : State),
    Holds s a (.reals out0) → Holds s b (.mod m) → Holds s c (.symbols syms) →
    OptionalSymbols s d sent →
    let P := Config.params
    let out := modulate P m s.hopDraws sent syms
    let draws := match m.body with
      | .bfsk _ => 0
      | .ofdm _ _ _ => 0
      | .fhss _ _ _ => sent.length + syms.length
    ((∀ x ∈ syms ++ sent, x.toNat ≤ 1) → out0.length + out.length ≤ P.maxElems →
      exec (.modRun a b c d) s = .next (afterOk
        (({ s with hopDraws := s.hopDraws + draws }.putObj a
          (.reals (out0 ++ out))).setRNat 0 out.length))) ∧
    ((∀ x ∈ syms ++ sent, x.toNat ≤ 1) → P.maxElems < out0.length + out.length →
      exec (.modRun a b c d) s = .next (afterFailure (.modRun a b c d) s .capacity)) ∧
    ((∃ x ∈ syms ++ sent, 1 < x.toNat) →
      exec (.modRun a b c d) s = .next (afterFailure (.modRun a b c d) s .invalidValue)) ∧
    (syms = [] → sent = [] → out0.length ≤ P.maxElems →
      exec (.modRun a b c d) s = .next (afterOk ((s.putObj a (.reals out0)).setRNat 0 0)))

/-- R367, R371 to R373: the samples of a modulation. A BFSK or FHSS one has a slot of `sps * expf` samples for
each symbol, the truncated and zero-padded tone of the instance's one parameter set, or of the channel the
symbol's draw gives (draw `k + j` for symbol `j`, log entry 4). An OFDM one is the sum, in channel order, of
the channels' filtered slots, zero-padded to the longest. No symbols give no samples, for OFDM too by R370
(log entry 20). -/
def Obligations.ModulationLength : Prop :=
  ∀ (P : Params) (m : Modulator) (k : Nat) (sent syms : List Byte),
    let N := P.num
    let len := m.sps * m.expf
    let slot := fun (q : ToneSet) (x : Byte) =>
      let t := (synth P len m.rate [N.add q.carrier (if x = 1 then q.f1 else q.f0)]).take m.sps
      t ++ List.replicate (len - t.length) (N.ofInt 0)
    let out := modulate P m k sent syms
    (∀ q, m.body = .bfsk q →
      out.length = (sent.length + syms.length) * len ∧
      ∀ j (h : j < (sent ++ syms).length), (out.drop (j * len)).take len = slot q (sent ++ syms)[j]) ∧
    (∀ base width lanes, m.body = .fhss base width lanes →
      out.length = (sent.length + syms.length) * len ∧
      ∀ j (h : j < (sent ++ syms).length),
        ∃ q, lanes.toList[hop P (k + j) lanes.toList.length]? = some q ∧
          (out.drop (j * len)).take len = slot q (sent ++ syms)[j]) ∧
    (sent = [] → syms = [] → out = []) ∧
    (∀ base width lanes, m.body = .ofdm base width lanes → sent ++ syms ≠ [] →
      let n := lanes.toList.length
      let combined := sent.flatMap (List.replicate n) ++ syms
      let share := fun ch => (List.range combined.length).filterMap fun j =>
        if j % n = ch then combined[j]? else none
      let z := lanes.toList.mapIdx fun ch l => P.applyFilter l.filt ((share ch).flatMap (slot l.tones))
      (∀ y ∈ z, y.length ≤ out.length) ∧ (∃ y ∈ z, y.length = out.length) ∧
      ∀ i, i < out.length → out[i]? = match z.map (fun y => y.getD i (N.ofInt 0)) with
        | [] => none
        | v :: vs => some (vs.foldl N.add v))

/-- R372: every OFDM channel carries the whole sentinel and then its round-robin share of the payload. -/
def Obligations.OfdmRoundRobin : Prop :=
  ∀ (n ch : Nat) (sent syms : List Byte), ch < n →
    strided (ofdmCombined n sent syms) ch n = sent ++ strided syms ch n

/-- R372, R440: DEM_ASSEMBLE's interleaving undoes the modulator's round-robin split, where the channels
have equal shares. -/
def Obligations.AssembleUndoesSplit : Prop :=
  ∀ (chs : Bank (List Byte)) (syms : List Byte),
    chs.toList = (List.range chs.count).map (fun ch => strided syms ch chs.count) →
    chs.count ∣ syms.length → assembleSymbols chs 0 = syms

/-- R380, R445: what MOD_INFO reports, with and without a destination for the carriers, and what DEM_INFO
reports: the channel count, the kind, `D` and `G`, and channel 0's tones, `deltaF` and the threshold. That
`R2` of MOD_INFO holds `sps * expf` modulo 2^64 is the model's choice (log entry 22). -/
def Obligations.InstanceInfo : Prop :=
  (∀ (a b : Handle) (m : Modulator) (s : State), Holds s b (.mod m) →
      (∀ p, m.body = .bfsk p →
        let t := ((((s.setRNat 0 1).setR 1 0).setRNat 2 (m.sps * m.expf)).setRFs p.f0 p.f1 p.deltaF p.bw)
        (a = 0 → exec (.modInfo a b) s = .next (afterOk t)) ∧
        (Vacant s a → exec (.modInfo a b) s = .next (afterOk (t.putObj a (.reals [p.carrier]))))) ∧
      (∀ base width lanes, m.body = .ofdm base width lanes →
        let t := ((((s.setRNat 0 lanes.toList.length).setR 1 1).setRNat 2 (m.sps * m.expf)).setRFs
          base.f0 base.f1 base.deltaF width)
        (a = 0 → exec (.modInfo a b) s = .next (afterOk t)) ∧
        (Vacant s a → lanes.toList.length ≤ Config.params.maxElems → exec (.modInfo a b) s =
          .next (afterOk (t.putObj a (.reals (lanes.toList.map fun l => l.tones.carrier)))))) ∧
      (∀ base width lanes, m.body = .fhss base width lanes →
        let t := ((((s.setRNat 0 lanes.toList.length).setR 1 2).setRNat 2 (m.sps * m.expf)).setRFs
          base.f0 base.f1 base.deltaF width)
        (a = 0 → exec (.modInfo a b) s = .next (afterOk t)) ∧
        (Vacant s a → lanes.toList.length ≤ Config.params.maxElems → exec (.modInfo a b) s =
          .next (afterOk (t.putObj a (.reals (lanes.toList.map fun p => p.carrier))))))) ∧
  (∀ (a : Handle) (d : Demodulator) (s : State), Holds s a (.dem d) →
      (∀ ch, d.body = .bfsk ch → exec (.demInfo a) s = .next (afterOk
        (((((s.setRNat 0 1).setR 1 0).setRNat 2 d.decim).setRNat 3 d.gardnerSps).setRFs
          ch.chan.t0 ch.chan.t1 ch.chan.tones.deltaF d.thr))) ∧
      (∀ base width chans, d.body = .ofdm base width chans → exec (.demInfo a) s = .next (afterOk
        (((((s.setRNat 0 chans.toList.length).setR 1 1).setRNat 2 d.decim).setRNat 3
          d.gardnerSps).setRFs chans.first.chan.t0 chans.first.chan.t1 chans.first.chan.tones.deltaF
          d.thr))) ∧
      (∀ base width chans lp, d.body = .fhss base width chans lp → exec (.demInfo a) s = .next (afterOk
        (((((s.setRNat 0 chans.toList.length).setR 1 2).setRNat 2 d.decim).setRNat 3
          d.gardnerSps).setRFs chans.first.t0 chans.first.t1 chans.first.tones.deltaF d.thr))))

/-! ### Demodulators -/

/-- R410 to R416: when DEM_NEW can build a demodulator, and what it is then built of, for BFSK, OFDM and FHSS:
the constants `D`, `G` and `M`, the planned base and the tiling, and each channel's tones and filters, with
the edges the spec fixes. -/
def Obligations.BfskDemodulatorFields : Prop :=
  ∀ (P : Params) (g : Cfg) (m : ModKind) (d : Demodulator),
    let N := P.num
    let legal := g.bps.toInt = 1 ∧ 1 ≤ g.srate.toInt ∧ 1 ≤ g.sps.toInt ∧ 1 ≤ g.dsps.toInt ∧
      g.dsps.toInt ≤ 2 * g.sps.toInt ∧ (m = .bfsk → N.isFinite g.carrier = true) ∧
      (m ≠ .bfsk → 1 ≤ g.bwdiv.toInt ∧ N.isFinite g.fmin = true ∧ N.isFinite g.fmax = true)
    let constants := d.sps = g.sps.toInt.toNat ∧ d.rate = g.srate.toInt.toNat ∧
      d.dsps = g.dsps.toInt.toNat ∧ d.sepi = g.sepi.toInt ∧ d.thr = g.gthresh ∧
      d.decim = 2 * d.sps / d.dsps ∧ d.gardnerSps = 2 * d.dsps ∧ d.window = d.dsps
    let bands := fun (base : Plan) (width : Number) (centres : List Number) =>
      P.planFSK d.sps d.rate (N.ofInt 0) d.sepi = some base ∧
      width = N.div base.bw (N.ofInt g.bwdiv.toInt) ∧
      N.isFinite width = true ∧ N.gt width (N.ofInt 0) = true ∧
      tile P g.fmin g.fmax width = .ok centres
    let context := fun (q : ToneSet) (width : Option Number) =>
      (⟨d.sps, d.rate, d.dsps, q, width.map fun w => ⟨q.carrier, w⟩⟩ : DesignCtx)
    let channel := fun (ch : Chan) (width : Option Number) =>
      let q := ch.tones
      let ctx := context q width
      let att := P.plan.demodAtt ctx
      let env := P.plan.envLP ctx
      let around := fun (tone : Number) => designBP P ⟨N.sub (N.sub tone q.deltaF) q.bw,
        N.sub tone q.deltaF, N.add tone q.deltaF, N.add (N.add tone q.deltaF) q.bw, att.1, att.2,
        N.ofInt d.rate⟩
      P.planFSK d.sps d.rate q.carrier d.sepi = some ⟨q.f0, q.f1, q.deltaF, q.bw⟩ ∧
      ch.t0 = N.add q.carrier q.f0 ∧ ch.t1 = N.add q.carrier q.f1 ∧
      around ch.t0 = some ch.bp0 ∧ around ch.t1 = some ch.bp1 ∧
      ch.gd0 = P.groupDelay ch.bp0 ∧ ch.gd1 = P.groupDelay ch.bp1 ∧
      designLP P (P.plan.interpLP ctx) = some ch.lpi ∧
      designLP P ⟨q.bw, env.stop, env.passAtt, env.stopAtt, env.rateArg⟩ = some ch.lpe
    let smooth := fun (q : ToneSet) (width : Option Number) =>
      designLP P (P.plan.smoothLP (context q width))
    (legal → constants → 1 ≤ d.decim ∧ 2 ≤ d.gardnerSps) ∧
    (buildDem P g m = .ok d ↔ legal ∧ constants ∧
      match m with
      | .bfsk => ∃ ch, d.body = .bfsk ch ∧ ch.chan.tones.carrier = g.carrier ∧ channel ch.chan none ∧
          smooth ch.chan.tones none = some ch.lp6
      | .ofdm => ∃ base width chans, d.body = .ofdm base width chans ∧
          bands base width (chans.toList.map fun ch => ch.chan.tones.carrier) ∧
          ∀ ch ∈ chans.toList, channel ch.chan (some width) ∧
            smooth ch.chan.tones (some width) = some ch.lp6
      | .fhss => ∃ base width chans lp6c, d.body = .fhss base width chans lp6c ∧
          bands base width (chans.toList.map fun ch => ch.tones.carrier) ∧
          (∀ ch ∈ chans.toList, channel ch (some width)) ∧
          smooth chans.first.tones (some width) = some lp6c)

/-- R420, R424 to R426: the value and the length of every step between the filters: zero-stuffing,
normalizing, decimation, the sign-merge, the causal moving average and the removed mean. -/
def Obligations.StageLengths : Prop :=
  ∀ (N : NumOps) (d w : Nat) (xs ys : List Number), 0 < d →
    let zero := N.ofInt 0
    let total := fun (vs : List Number) => vs.foldl N.add zero
    (stage4 d xs).length = (xs.length + d - 1) / d ∧
    (∀ j, j < (stage4 d xs).length → (stage4 d xs)[j]? = xs[j * d]?) ∧
    (zstuff N xs).length = 2 * xs.length ∧
    (∀ j, j < xs.length → (zstuff N xs)[2 * j]? = xs[j]? ∧ (zstuff N xs)[2 * j + 1]? = some zero) ∧
    (Machine.norm N xs).length = xs.length ∧
    (let top := xs.foldl (fun m v => if N.gt (N.abs v) m then N.abs v else m) zero
      ∀ (j : Nat) (v : Number), xs[j]? = some v →
        (Machine.norm N xs)[j]? = some (if N.eq top zero then v else N.div v top)) ∧
    (stage5 N xs ys).length = min xs.length ys.length ∧
    (∀ (j : Nat) (x y : Number), (Machine.norm N xs)[j]? = some x → (Machine.norm N ys)[j]? = some y →
      (stage5 N xs ys)[j]? = some (if N.gt (N.abs (N.neg y)) (N.abs x) then N.neg y else x)) ∧
    (movingAverage N w xs).length = xs.length ∧
    (∀ i, i < xs.length → (movingAverage N w xs)[i]? = some (N.div
      (total ((List.range xs.length).filterMap fun j =>
        if i < j + w ∧ j ≤ i then xs[j]? else none)) (N.ofInt w))) ∧
    (removeMean N xs).length = xs.length ∧
    (∀ (j : Nat) (v : Number), xs[j]? = some v →
      (removeMean N xs)[j]? = some (N.sub v (N.div (total xs) (N.ofInt xs.length))))

/-- R427, R428 to R430, R432: DEM_RUN's result for each kind, or `CAPACITY`; which depends on the filters
(R19). The symbols are the decisions at the Gardner points of a soft-symbol track, which DemSoftCommand gives
stage by stage; an OFDM instance gives a list for each channel and reports the length of the shortest. That an
input too short for a symbol (R430) has no case of its own is the model's choice (log entry 21). -/
def Obligations.DemRunCommand : Prop :=
  ∀ (a b c : Handle) (d : Demodulator) (xs : List Number) (s : State),
    Vacant s a → Holds s b (.dem d) → Holds s c (.reals xs) →
    let P := Config.params
    let N := P.num
    let i : Instr := .demRun a b c
    let symbols := fun (track : List Number) => (gardner N track d.gardnerSps d.thr).idx.map fun k =>
      if N.ge (track.getD k.toNat (N.ofInt 0)) (N.ofInt 0) then (0 : Byte) else 1
    (∀ ch, d.body = .bfsk ch →
      let out := symbols (softTrack P d ch xs)
      exec i s = .next (if out.length ≤ P.maxElems then
        afterOk (((s.putObj a (.symbols out)).setRNat 0 out.length).setRNat 1 1)
        else afterFailure i s .capacity)) ∧
    (∀ base width chans lp, d.body = .fhss base width chans lp →
      let out := symbols (fhssSoftTrack P d chans lp xs)
      exec i s = .next (if out.length ≤ P.maxElems then
        afterOk (((s.putObj a (.symbols out)).setRNat 0 out.length).setRNat 1 chans.toList.length)
        else afterFailure i s .capacity)) ∧
    (∀ base width chans, d.body = .ofdm base width chans →
      ∃ outs : Bank (List Byte),
        outs.toList = chans.toList.map (fun ch => symbols (softTrack P d ch xs)) ∧
        exec i s = .next (if ∀ ys ∈ outs.toList, ys.length ≤ P.maxElems then
          afterOk (((s.putObj a (.chanSyms outs)).setRNat 0
            ((outs.toList.map List.length).min?.getD 0)).setRNat 1 chans.toList.length)
          else afterFailure i s .capacity))

/-- R421 to R423, R426, R428, R429, R431: DEM_SOFT's track for a BFSK or FHSS instance, or `CAPACITY`; an OFDM
instance is refused. The track, stage by stage: each branch is filtered and trimmed, interpolated, squared
and smoothed, and decimated; the two are merged and smoothed again, for FHSS after the sample of largest
magnitude over the channels is taken for each symbol, ties to the lowest channel. -/
def Obligations.DemSoftCommand : Prop :=
  (∀ (P : Params) (d : Demodulator) (xs : List Number),
    let N := P.num
    let branch := fun (ch : Chan) (bp : Filter) (gd : Nat) =>
      stage4 d.decim (P.applyFilter ch.lpe
        ((P.applyFilter ch.lpi (zstuff N ((P.applyFilter bp xs).drop gd))).map fun v => N.mul v v))
    let branch0 := fun (ch : Chan) => branch ch ch.bp0 ch.gd0
    let branch1 := fun (ch : Chan) => branch ch ch.bp1 ch.gd1
    let smooth := fun (lp : Filter) (e o : List Number) => Machine.norm N (P.applyFilter lp
      (zstuff N (removeMean N (movingAverage N d.window (stage5 N e o)))))
    (∀ ch, softTrack P d ch xs = smooth ch.lp6 (branch0 ch.chan) (branch1 ch.chan)) ∧
    (∀ (chans : Bank Chan) (lp : Filter),
      let lists := chans.toList
      let n := ((lists.map branch0 ++ lists.map branch1).map List.length).min?.getD 0
      let picked := fun (branches : Chan → List Number) => (List.range n).map fun j =>
        match lists.map (fun ch => (branches ch).getD j (N.ofInt 0)) with
        | [] => N.ofInt 0
        | v :: vs => vs.foldl (fun best u => if N.gt (N.abs u) (N.abs best) then u else best) v
      fhssSoftTrack P d chans lp xs = smooth lp (picked branch0) (picked branch1))) ∧
  (∀ (a b c : Handle) (d : Demodulator) (xs : List Number) (s : State),
    Vacant s a → Holds s b (.dem d) → Holds s c (.reals xs) →
    let P := Config.params
    let i : Instr := .demSoft a b c
    (∀ ch, d.body = .bfsk ch →
      let out := softTrack P d ch xs
      exec i s = .next (if out.length ≤ P.maxElems then
        afterOk ((s.putObj a (.reals out)).setRNat 0 out.length)
        else afterFailure i s .capacity)) ∧
    (∀ base width chans lp, d.body = .fhss base width chans lp →
      let out := fhssSoftTrack P d chans lp xs
      exec i s = .next (if out.length ≤ P.maxElems then
        afterOk ((s.putObj a (.reals out)).setRNat 0 out.length)
        else afterFailure i s .capacity)) ∧
    (∀ base width chans, d.body = .ofdm base width chans →
      exec i s = .next (afterFailure i s .invalidValue)))

/-- R440: DEM_ASSEMBLE emits the channels' symbols column by column from the offset, to the shortest
channel's length; more than `MAX_ELEMS` of them raise `CAPACITY`. -/
def Obligations.DemAssembleCommand : Prop :=
  ∀ (a b : Handle) (c : IReg) (chs : Bank (List Byte)) (minLen : Nat) (s : State),
    Vacant s a → Holds s b (.chanSyms chs) →
    (∀ xs ∈ chs.toList, minLen ≤ xs.length) → (∃ xs ∈ chs.toList, xs.length = minLen) →
    let o := (s.getI c).toInt.toNat
    let n := chs.toList.length
    (0 ≤ (s.getI c).toInt → n * (minLen - o) ≤ Config.params.maxElems →
      ∃ out, exec (.demAssemble a b c) s =
          .next (afterOk ((s.putObj a (.symbols out)).setRNat 0 out.length)) ∧
        out.length = n * (minLen - o) ∧
        ∀ j ch, j < minLen - o → ch < n →
          out[j * n + ch]? = (chs.toList[ch]?).bind fun xs => xs[o + j]?) ∧
    (0 ≤ (s.getI c).toInt → Config.params.maxElems < n * (minLen - o) →
      exec (.demAssemble a b c) s = .next (afterFailure (.demAssemble a b c) s .capacity)) ∧
    ((s.getI c).toInt < 0 →
      exec (.demAssemble a b c) s = .next (afterFailure (.demAssemble a b c) s .invalidValue))

/-! ### Timing recovery -/

/-- R470, R472, R476, R480: TR_GARDNER with the configured threshold, and TR_DECIDE. -/
def Obligations.TimingCommands : Prop :=
  ∀ (a b c : Handle) (r : IReg) (xs : List Number) (s : State),
    Vacant s a → Holds s b (.reals xs) →
    let N := Config.params.num
    let g := gardner N xs (s.getI r).toInt.toNat s.cfg.gthresh
    (xs.length ≤ Config.params.maxElems → 2 ≤ (s.getI r).toInt →
      exec (.trGardner a b r) s = .next (afterOk
        ((((s.putObj a (.indices (g.idx.map (BitVec.ofInt 64)))).setR 0 (BitVec.ofInt 64 g.offset)).setRNat
          1 g.n).setRNat 2 g.idx.length))) ∧
    ((s.getI r).toInt < 2 →
      exec (.trGardner a b r) s = .next (afterFailure (.trGardner a b r) s .invalidValue)) ∧
    (∀ ks, Holds s c (.indices ks) → ks.length ≤ Config.params.maxElems →
      (∀ k ∈ ks, 0 ≤ k.toInt ∧ k.toInt < xs.length) →
      ∃ out : List Byte, exec (.trDecide a b c) s =
          .next (afterOk ((s.putObj a (.symbols out)).setRNat 0 ks.length)) ∧
        out.length = ks.length ∧
        ∀ (j : Nat) (k : Bits64) (v : Number), ks[j]? = some k → xs[k.toInt.toNat]? = some v →
          out[j]? = some (if N.ge v (N.ofInt 0) then 0 else 1)) ∧
    (∀ ks, Holds s c (.indices ks) → (∃ k ∈ ks, k.toInt < 0 ∨ (xs.length : Int) ≤ k.toInt) →
      exec (.trDecide a b c) s = .next (afterFailure (.trDecide a b c) s .invalidValue))

/-- R474: for `p >= 2` every index the Gardner loop reads is in bounds, its points strictly increase, it
makes at most `|s|` passes, and it ends where its condition fails; the first point is `p` and each next
one is at least `p - 1` on. -/
def Obligations.GardnerBounds : Prop :=
  ∀ (N : NumOps) (xs : List Number) (p : Nat) (thr : Number), 2 ≤ p →
    let g := gardner N xs p thr
    g.idx.length ≤ xs.length ∧ g.n = g.idx.length + 1 ∧
    (xs.length : Int) ≤ g.n * p + g.offset ∧
    (∀ k ∈ g.idx, 0 ≤ k - p ∧ k - p ≤ k - (p / 2 : Nat) ∧ k - (p / 2 : Nat) ≤ k ∧ k < xs.length) ∧
    g.idx.Pairwise (· < ·) ∧
    (∀ k, g.idx.head? = some k → k = p) ∧
    (∀ j (h : j + 1 < g.idx.length), (p : Int) - 1 ≤ g.idx[j + 1] - g.idx[j])

/-- R471: the first point is `p`, and each next point is `p` on from the last, nudged by one down or up as
the timing error says, and only at a transition. -/
def Obligations.GardnerRecurrence : Prop :=
  ∀ (N : NumOps) (xs : List Number) (p : Nat) (thr : Number), 2 ≤ p →
    let idx := (gardner N xs p thr).idx
    (p < xs.length → idx.head? = some (p : Int)) ∧
    (∀ j (h : j + 1 < idx.length) (x y z : Number),
      xs[(idx[j]).toNat]? = some x → xs[(idx[j] - p).toNat]? = some y →
      xs[(idx[j] - (p / 2 : Nat)).toNat]? = some z →
      let e := N.mul (N.sub x y) z
      idx[j + 1] = idx[j] + p +
        (if N.lt (N.mul x y) (N.ofInt 0) then
          if N.gt e thr then -1 else if N.lt e (N.neg thr) then 1 else 0
        else 0))

/-- R477: where no pass nudges, the points are exactly the multiples of `p`; and consecutive points always
differ by `p - 1` to `p + 1`. -/
def Obligations.GardnerConvergence : Prop :=
  ∀ (N : NumOps) (xs : List Number) (p : Nat) (thr : Number), 2 ≤ p →
    ((∀ n : Nat, 1 ≤ n → n * p < xs.length → gardnerNudge N xs p thr (n * p : Nat) 0 = 0) →
      (gardner N xs p thr).idx =
        (List.range ((xs.length - 1) / p)).map fun j => (((j + 1) * p : Nat) : Int)) ∧
    (∀ j (h : j + 1 < (gardner N xs p thr).idx.length),
      (p : Int) - 1 ≤ (gardner N xs p thr).idx[j + 1] - (gardner N xs p thr).idx[j] ∧
      (gardner N xs p thr).idx[j + 1] - (gardner N xs p thr).idx[j] ≤ p + 1)

/-! ### Frame synchronizer -/

/-- R500, R502 to R504: SYNC_LOCATE reports the first index of the greatest correlation, or raises
`SYNC_ERROR` where that index lies at or beyond the received length or there is nothing to correlate. -/
def Obligations.SyncLocateCommand : Prop :=
  ∀ (a b : Handle) (r sent : List Byte) (s : State),
    Holds s a (.symbols r) → Holds s b (.symbols sent) →
    (∀ pos, sent ≠ [] → pos < r.length →
      (∀ m, m < r.length + sent.length - 1 → corrAt r sent m ≤ corrAt r sent pos) →
      (∀ m, m < pos → corrAt r sent m < corrAt r sent pos) →
      exec (.syncLocate a b) s = .next (afterOk
        (((s.setRNat 0 pos).setR 1 (BitVec.ofInt 64 (corrAt r sent pos))).setR 2
          (BitVec.ofInt 64 ((pos : Int) - sent.length + 1))))) ∧
    (r = [] ∨ sent = [] ∨
        (∀ pos, pos < r.length → ∃ m, m < r.length + sent.length - 1 ∧
          corrAt r sent pos < corrAt r sent m) →
      exec (.syncLocate a b) s = .next (afterFailure (.syncLocate a b) s .syncError))

/-- R501, R502: a correlation value is the sum of the bipolar products over the sentinel indices whose
received index exists; it lies in `[-S, S]`, and is `S` exactly where the sentinel matches symbol for symbol
with its last symbol on index `m`. -/
def Obligations.CorrelationBounds : Prop :=
  ∀ (r sent : List Byte) (m : Nat), m < r.length + sent.length - 1 →
    let bip := fun (x : Byte) => if x = 0 then (-1 : Int) else 1
    corrAt r sent m =
      (((List.range sent.length).filter fun i =>
        decide (sent.length ≤ m + 1 + i ∧ m + 1 + i - sent.length < r.length)).map fun i =>
          bip (r.getD (m + 1 + i - sent.length) 0) * bip (sent.getD i 0)).sum ∧
    -(sent.length : Int) ≤ corrAt r sent m ∧ corrAt r sent m ≤ sent.length ∧
    (corrAt r sent m = sent.length ↔
      ∃ k, m + 1 = k + sent.length ∧ m < r.length ∧
        ((r.drop k).take sent.length).map bip = sent.map bip)

/-- R503, R511: a sentinel inserted at position `k` of a stream, with no earlier match, is located at
`k + S - 1`. -/
def Obligations.SentinelLocated : Prop :=
  ∀ (pre post sent : List Byte), sent ≠ [] →
    (∀ k, k < pre.length →
      (((pre ++ sent ++ post).drop k).take sent.length).map bip ≠ sent.map bip) →
    locate (pre ++ sent ++ post) sent = some (pre.length + sent.length - 1)

/-- R510: SYNC_MULTI reports the least of the offsets with the most votes, the number of channels that
located the sentinel, and the votes; with none it raises `SYNC_ERROR`. -/
def Obligations.SyncMultiCommand : Prop :=
  ∀ (a b : Handle) (chs : Bank (List Byte)) (sent : List Byte) (s : State),
    Holds s a (.chanSyms chs) → Holds s b (.symbols sent) →
    let ok := chs.toList.filterMap fun r => locate r sent
    (∀ best, best ∈ ok →
      (∀ v ∈ ok, ok.count v < ok.count best ∨ (ok.count v = ok.count best ∧ best ≤ v)) →
      exec (.syncMulti a b) s = .next (afterOk
        (((s.setRNat 0 best).setRNat 1 ok.length).setRNat 2 (ok.count best)))) ∧
    (ok = [] → exec (.syncMulti a b) s = .next (afterFailure (.syncMulti a b) s .syncError))
end

