-- ==== Sys2Proof/Laws/Slots.lean ====
section
/-! SUPPORT. The object memory (R63): what reading a slot gives after a write or an erase, and that every
memory operation keeps the canonical form. -/

namespace Sys2Proof.Machine

/-- A handle at or below the bound of a rising list is not in it. -/
theorem slotGet_of_le {lo : Nat} {m : Slots} (w : slotsRise lo m = true) {h : Nat} (hh : h ≤ lo) :
    slotGet m h = none := by
  induction m generalizing lo with
  | nil => rfl
  | cons p rest ih =>
    obtain ⟨k, o⟩ := p
    simp only [slotsRise, Bool.and_eq_true, decide_eq_true_eq] at w
    simp only [slotGet]
    rw [if_neg (by omega)]
    exact ih w.2 (by omega)

/-- Rising above a bound is rising above any lower bound. -/
theorem slotsRise_mono {lo lo' : Nat} {m : Slots} (w : slotsRise lo m = true) (hl : lo' ≤ lo) :
    slotsRise lo' m = true := by
  cases m with
  | nil => rfl
  | cons p rest =>
    obtain ⟨k, o⟩ := p
    simp only [slotsRise, Bool.and_eq_true, decide_eq_true_eq] at w ⊢
    exact ⟨⟨by omega, w.1.2⟩, w.2⟩

/-- Reading a slot after a write, in any list of slots. -/
theorem slotGet_slotPut (m : Slots) (h g : Nat) (o : Obj) :
    slotGet (slotPut m h o) g = if h = g then some o else slotGet m g := by
  induction m with
  | nil => rfl
  | cons p rest ih =>
    obtain ⟨k, x⟩ := p
    simp only [slotPut]
    split
    · simp only [slotGet]
    · split
      · subst_vars
        simp only [slotGet]
        split <;> rfl
      · simp only [slotGet, ih]
        by_cases hk : k = g
        · rw [if_pos hk, if_pos hk, if_neg (by omega)]
        · rw [if_neg hk, if_neg hk]

/-- Reading a slot after an erase. -/
theorem slotGet_slotErase (m : Slots) (h g : Nat) :
    slotGet (slotErase m h) g = if h = g then none else slotGet m g := by
  induction m with
  | nil => simp [slotErase, slotGet]
  | cons p rest ih =>
    obtain ⟨k, x⟩ := p
    simp only [slotErase]
    split
    · subst_vars
      simp only [slotGet, ih]
      split <;> rfl
    · simp only [slotGet, ih]
      by_cases hk : k = g
      · rw [if_pos hk, if_pos hk, if_neg (by omega)]
      · rw [if_neg hk, if_neg hk]

/-- A write keeps the handles rising. -/
theorem slotsRise_slotPut {lo : Nat} {m : Slots} {h : Nat} (o : Obj) (w : slotsRise lo m = true)
    (hl : lo < h) (hu : h ≤ 255) : slotsRise lo (slotPut m h o) = true := by
  induction m generalizing lo with
  | nil => simp [slotPut, slotsRise, hl, hu]
  | cons p rest ih =>
    obtain ⟨k, x⟩ := p
    simp only [slotsRise, Bool.and_eq_true, decide_eq_true_eq] at w
    simp only [slotPut]
    split
    · simp only [slotsRise, Bool.and_eq_true, decide_eq_true_eq]
      exact ⟨⟨hl, hu⟩, ⟨by assumption, w.1.2⟩, w.2⟩
    · split
      · subst_vars
        simp only [slotsRise, Bool.and_eq_true, decide_eq_true_eq]
        exact ⟨⟨hl, hu⟩, w.2⟩
      · simp only [slotsRise, Bool.and_eq_true, decide_eq_true_eq]
        exact ⟨w.1, ih w.2 (by omega)⟩

/-- An erase keeps the handles rising. -/
theorem slotsRise_slotErase {lo : Nat} {m : Slots} (h : Nat) (w : slotsRise lo m = true) :
    slotsRise lo (slotErase m h) = true := by
  induction m generalizing lo with
  | nil => rfl
  | cons p rest ih =>
    obtain ⟨k, x⟩ := p
    simp only [slotsRise, Bool.and_eq_true, decide_eq_true_eq] at w
    simp only [slotErase]
    split
    · exact slotsRise_mono (ih w.2) (by omega)
    · simp only [slotsRise, Bool.and_eq_true, decide_eq_true_eq]
      exact ⟨w.1, ih w.2⟩

/-- A nonzero handle lies in 1 to 255. -/
theorem handle_pos {h : Handle} (hh : h ≠ 0) : 0 < h.toNat ∧ h.toNat ≤ 255 := by
  have := h.isLt
  have : h.toNat ≠ 0 := fun e => hh (BitVec.eq_of_toNat_eq e)
  omega

/-- `OBJ[h] <- o` keeps the canonical form, for a handle that is not the null handle. -/
theorem slotsWf_putObj {s : State} {h : Handle} (o : Obj) (hh : h ≠ 0) (w : slotsWf s.slots = true) :
    slotsWf (s.putObj h o).slots = true :=
  slotsRise_slotPut o w (handle_pos hh).1 (handle_pos hh).2

/-- `OBJ[h] <- EMPTY` keeps the canonical form. -/
theorem slotsWf_freeObj {s : State} (h : Handle) (w : slotsWf s.slots = true) :
    slotsWf (s.freeObj h).slots = true :=
  slotsRise_slotErase h.toNat w

/-- A reset leaves the canonical form. -/
theorem slotsWf_resetWith (P : Params) : slotsWf (State.resetWith P).slots = true := rfl

/-- The memory after reset has the canonical form. -/
theorem slotsWf_reset : slotsWf State.reset.slots = true := rfl

/-- Two memories in canonical form that read alike are equal. -/
theorem slots_ext {lo : Nat} {m n : Slots} (wm : slotsRise lo m = true) (wn : slotsRise lo n = true)
    (e : ∀ h, slotGet m h = slotGet n h) : m = n := by
  induction m generalizing lo n with
  | nil =>
    cases n with
    | nil => rfl
    | cons p rest =>
      obtain ⟨k, o⟩ := p
      have := e k
      simp [slotGet] at this
  | cons p rest ih =>
    obtain ⟨k, o⟩ := p
    cases n with
    | nil =>
      have := e k
      simp [slotGet] at this
    | cons q tail =>
      obtain ⟨k', o'⟩ := q
      simp only [slotsRise, Bool.and_eq_true, decide_eq_true_eq] at wm wn
      have hk : k = k' := by
        rcases Nat.lt_trichotomy k k' with h | h | h
        · have := e k
          simp only [slotGet, if_true] at this
          rw [if_neg (by omega), slotGet_of_le wn.2 (by omega)] at this
          cases this
        · exact h
        · have := e k'
          simp only [slotGet, if_true] at this
          rw [if_neg (by omega), slotGet_of_le wm.2 (by omega)] at this
          cases this
      subst hk
      have ho := e k
      simp only [slotGet, if_true] at ho
      cases ho
      congr 1
      refine ih wm.2 wn.2 fun h => ?_
      by_cases hh : h ≤ k
      · rw [slotGet_of_le wm.2 hh, slotGet_of_le wn.2 hh]
      · have := e h
        simp only [slotGet] at this
        rwa [if_neg (by omega), if_neg (by omega)] at this

end Sys2Proof.Machine
end

