-- ==== Sys2Proof/Laws/Ops.lean ====
section
/-! SUPPORT. One lemma per shared operation that says everything it can do: the checks of R200 and R602,
the capacity of R8, how a command ends (R31, R604, R605), and the constraints of the ports (R13 to R22). -/

namespace Sys2Proof.Machine

/-! ### Reading an object (R30, R63) -/

@[simp] theorem State.obj_putObj (s : State) (h g : Handle) (o : Obj) :
    (s.putObj h o).obj g = if h = g then some o else s.obj g := by
  simp only [State.obj, State.putObj, slotGet_slotPut, BitVec.toNat_inj]

@[simp] theorem State.obj_freeObj (s : State) (h g : Handle) :
    (s.freeObj h).obj g = if h = g then none else s.obj g := by
  simp only [State.obj, State.freeObj, slotGet_slotErase, BitVec.toNat_inj]

/-! ### Checks -/

/-- `require` goes on exactly where its condition holds. -/
theorem require_eq_ok {c : Bool} {e : Failure} {u : Unit} : require c e = .ok u ↔ c = true := by
  cases c <;> simp [require]

/-- `require` raises exactly its own failure, where its condition fails. -/
theorem require_eq_error {c : Bool} {e e' : Failure} :
    require c e = .error e' ↔ c = false ∧ e = e' := by
  cases c <;> simp [require]

/-- The capacity test is `n <= MAX_ELEMS` (R8). -/
theorem fitsElems_iff {P : Params} {n : Nat} : fitsElems P n = true ↔ n ≤ P.maxElems := by
  simp only [fitsElems, Bool.or_eq_true, decide_eq_true_eq, Params.maxElems]
  exact ⟨fun h => h.elim (fun h => by omega) of_decide_eq_true, fun h => .inr (decide_eq_true h)⟩

/-- A Packer's capacity test is `n <= 8 * MAX_ELEMS` (R8). -/
theorem fitsBits_iff {P : Params} {n : Nat} : fitsBits P n = true ↔ n ≤ 8 * P.maxElems := by
  simp only [fitsBits, Bool.or_eq_true, decide_eq_true_eq, Params.maxElems]
  exact ⟨fun h => h.elim (fun h => by omega) of_decide_eq_true, fun h => .inr (decide_eq_true h)⟩

/-- The capacity check of a list passes exactly at or under `MAX_ELEMS` (R200). -/
theorem requireElems_eq_ok {P : Params} {n : Nat} {u : Unit} :
    requireElems P n = .ok u ↔ n ≤ P.maxElems := by
  rw [requireElems, require_eq_ok, fitsElems_iff]

/-- The capacity check of a Packer passes exactly at or under `8 * MAX_ELEMS` (R200). -/
theorem requireBits_eq_ok {P : Params} {n : Nat} {u : Unit} :
    requireBits P n = .ok u ↔ n ≤ 8 * P.maxElems := by
  rw [requireBits, require_eq_ok, fitsBits_iff]

/-- An existing-object operand passes exactly where the handle is not null, its slot holds an object, and
the object is of an accepted kind (R602). -/
theorem existing_eq_ok {α : Type} {s : State} {h : Handle} {view : Obj → Option α} {v : α} :
    existing s h view = .ok v ↔ h ≠ 0 ∧ ∃ o, s.obj h = some o ∧ view o = some v := by
  unfold existing
  split
  case isTrue hh => simp only [hh, ne_eq, not_true_eq_false, false_and, reduceCtorEq]
  case isFalse hh =>
    cases ho : s.obj h with
    | none => simp only [reduceCtorEq, false_and, exists_false, and_false]
    | some o =>
      change (match view o with | none => Except.error Failure.wrongKind | some v => Except.ok v)
        = Except.ok v ↔ _
      constructor
      · intro e
        cases hv : view o with
        | none =>
          rw [hv] at e
          cases e
        | some w =>
          rw [hv] at e
          cases e
          exact ⟨hh, o, rfl, hv⟩
      · rintro ⟨-, x, hx, hv⟩
        cases hx
        rw [hv]

/-- A fresh destination passes exactly where the handle is not null and its slot is `EMPTY` (R602). -/
theorem fresh_eq_ok {s : State} {h : Handle} {u : Unit} :
    fresh s h = .ok u ↔ h ≠ 0 ∧ s.obj h = none := by
  unfold fresh
  split
  case isTrue hh => simp only [hh, ne_eq, not_true_eq_false, false_and, reduceCtorEq]
  case isFalse hh =>
    cases ho : s.obj h with
    | none => exact ⟨fun _ => ⟨hh, rfl⟩, fun _ => rfl⟩
    | some o => simp only [reduceCtorEq, and_false]

/-- An optional operand is absent at 0, and elsewhere an existing object (R135). -/
theorem optional_eq_ok {α : Type} {s : State} {h : Handle} {view : Obj → Option α} {r : Option α} :
    optional s h view = .ok r ↔
      (h = 0 ∧ r = none) ∨ (h ≠ 0 ∧ ∃ o v, s.obj h = some o ∧ view o = some v ∧ r = some v) := by
  unfold optional
  split
  case isTrue hh =>
    subst hh
    constructor
    · intro e
      exact .inl ⟨rfl, (Except.ok.inj e).symm⟩
    · rintro (⟨-, rfl⟩ | ⟨h, -⟩)
      · rfl
      · exact absurd rfl h
  case isFalse hh =>
    cases he : existing s h view with
    | error e =>
      constructor
      · intro e
        cases e
      · rintro (⟨h, -⟩ | ⟨-, o, v, ho, hv, -⟩)
        · exact absurd h hh
        · rw [existing_eq_ok.2 ⟨hh, o, ho, hv⟩] at he
          cases he
    | ok v =>
      obtain ⟨-, o, ho, hv⟩ := existing_eq_ok.1 he
      constructor
      · intro e
        exact .inr ⟨hh, o, v, ho, hv, (Except.ok.inj e).symm⟩
      · rintro (⟨h, -⟩ | ⟨-, o', v', ho', hv', rfl⟩)
        · exact absurd h hh
        · rw [ho] at ho'
          cases ho'
          rw [hv] at hv'
          cases hv'
          rfl

/-- An optional fresh destination is absent at 0, and elsewhere fresh (R380). -/
theorem optionalFresh_eq_ok {s : State} {h : Handle} {u : Unit} :
    optionalFresh s h = .ok u ↔ h = 0 ∨ s.obj h = none := by
  unfold optionalFresh
  split
  case isTrue hh => exact ⟨fun _ => .inl hh, fun _ => rfl⟩
  case isFalse hh =>
    rw [fresh_eq_ok]
    exact ⟨fun e => .inr e.2, fun e => ⟨hh, e.resolve_left hh⟩⟩

/-! ### How a command ends -/

/-- Taking a failing status changes the three status registers and nothing else (R604, R611). -/
theorem raiseFailure_eq (header : Word) (s : State) (e : Failure) :
    raiseFailure header s e =
      { s with
        status := BitVec.ofNat 64 e.code
        sticky := s.sticky ||| (1 <<< e.code)
        errcmd := header.setWidth 64 } := by
  cases e <;> rfl

/-- Ending with `OK` keeps the command's writes and clears `STATUS` alone (R605). -/
theorem completeWith_ok (header : Word) (s : State) :
    completeWith header s .ok = { s with status := 0 } := rfl

/-- Ending with another non-failing status keeps the command's writes and records it (R605). -/
theorem completeWith_ne_ok {header : Word} {s : State} {c : Completion} (hc : c ≠ .ok) :
    completeWith header s c =
      { s with
        status := BitVec.ofNat 64 c.code
        sticky := s.sticky ||| (1 <<< c.code)
        errcmd := header.setWidth 64 } := by
  cases c with
  | ok => exact absurd rfl hc
  | decodeRecovered => rfl
  | shortRead => rfl

/-! ### The external ports (R13, R15, R22) -/

@[simp] theorem fitTo_length {α : Type} (n : Nat) (v : α) (xs : List α) : (fitTo n v xs).length = n := by
  simp only [fitTo, List.length_append, List.length_take, List.length_replicate]
  omega

@[simp] theorem synth_length (P : Params) (len rate : Nat) (fs : List Number) :
    (synth P len rate fs).length = len := fitTo_length ..

@[simp] theorem rsEncode_length (P : Params) (n k : Nat) (m : List Byte) :
    (rsEncode P n k m).length = n := fitTo_length ..

/-- A draw names one of the channels (R13). -/
theorem hop_lt (P : Params) (k : Nat) {n : Nat} (hn : 0 < n) : hop P k n < n := Nat.mod_lt _ hn

/-- What the decoder port is given at a position: no byte where the position is erased (R22). -/
theorem withErasures_getElem? (xs : List Byte) (erased : List Nat) (p : Nat) :
    (withErasures xs erased)[p]? = xs[p]?.map fun x => if p ∈ erased then none else some x := by
  simp [withErasures, List.getElem?_mapIdx]

end Sys2Proof.Machine
end

