-- ==== Sys2Proof/Laws/Exec.lean ====
section
/-! SUPPORT. What `exec` and `step` can do, said once: every command is its rule at the implementation's
parameters, ended by `commit`, and a step is the next host operation. -/

namespace Sys2Proof.Machine

/-- Every command's meaning is its rule, ended as R31 says. -/
theorem exec_eq_commit (i : Instr) (s : State) :
    exec i s = commit i s (commandRule Config.params i s) := by
  cases i <;> rfl

/-- A command always ends in a next state (R600). -/
theorem exec_eq_next (i : Instr) (s : State) :
    exec i s = .next (endCommand (headerWord i) s (commandRule Config.params i s)) :=
  exec_eq_commit i s

/-- Everything a command can do: raise a failing status, or complete with what its rule made. -/
theorem exec_cases {i : Instr} {s t : State} (h : exec i s = .next t) :
    (∃ e, commandRule Config.params i s = .error e ∧ t = raiseFailure (headerWord i) s e) ∨
    (∃ c s', commandRule Config.params i s = .ok (c, s') ∧ t = completeWith (headerWord i) s' c) := by
  rw [exec_eq_next] at h
  cases h
  cases hr : commandRule Config.params i s with
  | error e => exact .inl ⟨e, rfl, rfl⟩
  | ok p => exact .inr ⟨p.1, p.2, rfl, rfl⟩

/-- A command whose rule raises a failing status. -/
theorem exec_of_error {i : Instr} {s : State} {e : Failure}
    (h : commandRule Config.params i s = .error e) :
    exec i s = .next (raiseFailure (headerWord i) s e) := by
  rw [exec_eq_next, h]
  rfl

/-- A command whose rule completes. -/
theorem exec_of_ok {i : Instr} {s s' : State} {c : Completion}
    (h : commandRule Config.params i s = .ok (c, s')) :
    exec i s = .next (completeWith (headerWord i) s' c) := by
  rw [exec_eq_next, h]
  rfl

/-- Everything the last word of a command can do (R152). -/
theorem executeWords_cases (h : Word) (ext : List Word) (s : State) :
    (∃ r, decode (h :: ext) = .error r ∧
      executeWords h ext s = .next (raiseFailure h s .illegalCommand)) ∨
    (∃ i, decode (h :: ext) = .ok i ∧ executeWords h ext s = exec i s) := by
  unfold executeWords
  cases decode (h :: ext) with
  | error r => exact .inl ⟨r, rfl, rfl⟩
  | ok i => exact .inr ⟨i, rfl, rfl⟩

/-- A step with no host operation pending waits (R632). -/
theorem step_of_waiting {s : State} (h : s.pending = []) : step s = .next s := by
  simp [step, portStep, h]

/-- A step performs the oldest pending host operation (R104, R116). -/
theorem step_of_pending {s : State} {op : HostOp} {rest : List HostOp} (h : s.pending = op :: rest) :
    step s = hostStep op { s with pending := rest } := by
  simp [step, portStep, h]

end Sys2Proof.Machine
end

