-- ==== Sys2Proof/Laws/Complete.lean ====
section
/-! SUPPORT. From a command's rule to the state it ends in, and from what the slots hold to what the operand
checks answer. -/

namespace Sys2Proof.Machine

/-- A command whose rule ends with `OK`. -/
theorem exec_afterOk {i : Instr} {s t : State} (h : commandRule Config.params i s = .ok (.ok, t)) :
    exec i s = .next (afterOk t) := exec_of_ok h

/-- A command whose rule ends with a report. -/
theorem exec_afterStatus {i : Instr} {s t : State} {c : Completion} (hc : c ≠ .ok)
    (h : commandRule Config.params i s = .ok (c, t)) :
    exec i s = .next (afterStatus (headerWord i) t c.code) := by
  rw [exec_of_ok h, completeWith_ne_ok hc]
  rfl

/-- A command whose rule raises. -/
theorem exec_afterFailure {i : Instr} {s : State} {e : Failure}
    (h : commandRule Config.params i s = .error e) :
    exec i s = .next (afterFailure i s e) := by
  rw [exec_of_error h, raiseFailure_eq]
  rfl

/-- An operand that names an object the command accepts. -/
theorem existing_of_holds {α : Type} {s : State} {h : Handle} {o : Obj} {view : Obj → Option α} {v : α}
    (ho : Holds s h o) (hv : view o = some v) : existing s h view = .ok v :=
  existing_eq_ok.2 ⟨ho.1, o, ho.2, hv⟩

/-- An operand that can be a fresh destination. -/
theorem fresh_of_vacant {s : State} {h : Handle} (hv : Vacant s h) : fresh s h = .ok () :=
  fresh_eq_ok.2 hv

/-- An optional operand that is absent. -/
theorem optional_zero {α : Type} {s : State} {view : Obj → Option α} : optional s 0 view = .ok none := rfl

/-- An optional operand that names an object the command accepts. -/
theorem optional_of_holds {α : Type} {s : State} {h : Handle} {o : Obj} {view : Obj → Option α} {v : α}
    (ho : Holds s h o) (hv : view o = some v) : optional s h view = .ok (some v) :=
  optional_eq_ok.2 (.inr ⟨ho.1, o, v, ho.2, hv, rfl⟩)

/-- The source of a Stream or Tracker, by the bits it holds. -/
theorem existing_of_sourceBits {s : State} {h : Handle} {xs : List Bool} (hs : SourceBits s h xs) :
    ∃ src, existing s h Obj.asSource = .ok src ∧ src.bits = xs := by
  rcases hs with ⟨bs, hb, rfl⟩ | hp
  · exact ⟨.bytes bs, existing_of_holds hb rfl, rfl⟩
  · exact ⟨.packer xs, existing_of_holds hp rfl, rfl⟩

/-- A condition that holds passes. -/
theorem require_of {c : Bool} {e : Failure} (h : c = true) : require c e = .ok () := require_eq_ok.2 h

/-- A condition that fails raises. -/
theorem require_not {c : Bool} {e : Failure} (h : c = false) : require c e = .error e :=
  require_eq_error.2 ⟨h, rfl⟩

/-- A count within the floor of `MAX_ELEMS` fits every implementation (R8). -/
theorem le_maxElems {P : Params} {n : Nat} (h : n ≤ Config.elemsFloor) : n ≤ P.maxElems :=
  Nat.le_trans h (Nat.le_add_left _ _)

/-- A list that fits passes the capacity check. -/
theorem requireElems_of {P : Params} {n : Nat} (h : n ≤ P.maxElems) : requireElems P n = .ok () :=
  requireElems_eq_ok.2 h

/-- A list that does not fit raises `CAPACITY`. -/
theorem requireElems_not {P : Params} {n : Nat} (h : P.maxElems < n) :
    requireElems P n = .error .capacity := by
  rw [requireElems, require_not]
  rw [← Bool.not_eq_true, fitsElems_iff]
  omega

/-- A Packer that fits passes the capacity check. -/
theorem requireBits_of {P : Params} {n : Nat} (h : n ≤ 8 * P.maxElems) : requireBits P n = .ok () :=
  requireBits_eq_ok.2 h

/-- What every step keeps, every run keeps. -/
theorem run_keeps {M : Host.Core} {I : M.State → Prop} (h : ∀ s t, I s → M.step s = .next t → I t)
    (k : Nat) : ∀ s t : M.State, I s → M.run k s = .next t → I t := by
  induction k with
  | zero =>
    intro s t hi hr
    cases hr
    exact hi
  | succ k ih =>
    intro s t hi hr
    rw [Host.Core.run] at hr
    split at hr
    next u hu => exact ih u t (h s u hi hu) hr
    next => cases hr
    next => cases hr

end Sys2Proof.Machine
end

