-- ==== Sys2Proof/Laws/Encoding.lean ====
section
/-! SUPPORT. The fields of a header word built from them (R131). -/

namespace Sys2Proof

/-- The bits of a header word (R131). -/
theorem getLsbD_headerOf (op a b c : Byte) (i : Nat) :
    (headerOf op a b c).getLsbD i =
      if i < 8 then op.getLsbD i
      else if i - 8 < 8 then a.getLsbD (i - 8)
      else if i - 8 - 8 < 8 then b.getLsbD (i - 8 - 8)
      else c.getLsbD (i - 8 - 8 - 8) := by
  have h : (headerOf op a b c).getLsbD i = (c ++ b ++ a ++ op).getLsbD i := rfl
  rw [h, BitVec.getLsbD_append, BitVec.getLsbD_append, BitVec.getLsbD_append]

@[simp] theorem fieldOp_headerOf (op a b c : Byte) : fieldOp (headerOf op a b c) = op := by
  ext i hi
  rw [fieldOp, BitVec.getElem_extractLsb', getLsbD_headerOf, if_pos (by omega)]
  simp [BitVec.getLsbD_eq_getElem hi]

@[simp] theorem fieldA_headerOf (op a b c : Byte) : fieldA (headerOf op a b c) = a := by
  ext i hi
  rw [fieldA, BitVec.getElem_extractLsb', getLsbD_headerOf, if_neg (by omega), if_pos (by omega),
    Nat.add_sub_cancel_left, BitVec.getLsbD_eq_getElem hi]

@[simp] theorem fieldB_headerOf (op a b c : Byte) : fieldB (headerOf op a b c) = b := by
  ext i hi
  rw [fieldB, BitVec.getElem_extractLsb', getLsbD_headerOf, if_neg (by omega), if_neg (by omega),
    if_pos (by omega), Nat.sub_sub, Nat.add_sub_cancel_left, BitVec.getLsbD_eq_getElem hi]

@[simp] theorem fieldC_headerOf (op a b c : Byte) : fieldC (headerOf op a b c) = c := by
  ext i hi
  rw [fieldC, BitVec.getElem_extractLsb', getLsbD_headerOf, if_neg (by omega), if_neg (by omega),
    if_neg (by omega), Nat.sub_sub, Nat.sub_sub, Nat.add_sub_cancel_left, BitVec.getLsbD_eq_getElem hi]

end Sys2Proof
end

