-- ==== Sys2Proof/Laws/PerInstr.lean ====
section
/-! SUPPORT. Facts about every command as syntax, one lemma per constructor. -/

namespace Sys2Proof.Laws.EncodedLength

/-- A command's encoding has the length its opcode fixes (R133, R162). -/
def Statement (i : Instr) : Prop := (encode i).length = commandLength (headerWord i)

/-- A command's length from its opcode and its extension words. -/
theorem encodedLength {i : Instr} {op a b c : Byte} {n : Nat} (hw : headerWord i = headerOf op a b c)
    (hx : (extensionWords i).length + 1 = n) (ho : commandLength (headerOf op 0 0 0) = n) :
    Statement i := by
  rw [Statement, encode, List.length_cons, hx, hw, ← ho]
  simp only [commandLength, fieldOp_headerOf]

theorem nop : Statement .nop :=
  encodedLength rfl rfl rfl

theorem seti (a : IReg) (imm : Bits64) : Statement (.seti a imm) :=
  encodedLength rfl rfl rfl

theorem setf (a : FReg) (imm : Bits64) : Statement (.setf a imm) :=
  encodedLength rfl rfl rfl

theorem movr (a : IReg) (b : RReg) : Statement (.movr a b) :=
  encodedLength rfl rfl rfl

theorem addi (a b : IReg) (imm : Byte) : Statement (.addi a b imm) :=
  encodedLength rfl rfl rfl

theorem cfgWri (a : CfgReg) (b : IReg) : Statement (.cfgWri a b) :=
  encodedLength rfl rfl rfl

theorem cfgWrf (a : CfgReg) (b : FReg) : Statement (.cfgWrf a b) :=
  encodedLength rfl rfl rfl

theorem cfgRd (a : CfgReg) : Statement (.cfgRd a) :=
  encodedLength rfl rfl rfl

theorem clrerr : Statement .clrerr :=
  encodedLength rfl rfl rfl

theorem reset : Statement .reset :=
  encodedLength rfl rfl rfl

theorem movrf (a : FReg) (b : RReg) : Statement (.movrf a b) :=
  encodedLength rfl rfl rfl

theorem bufNew (a : Handle) (k : Kind) : Statement (.bufNew a k) :=
  encodedLength rfl rfl rfl

theorem bufFree (a : Handle) : Statement (.bufFree a) :=
  encodedLength rfl rfl rfl

theorem bufLen (a : Handle) : Statement (.bufLen a) :=
  encodedLength rfl rfl rfl

theorem bufPushi (a : Handle) (b : IReg) : Statement (.bufPushi a b) :=
  encodedLength rfl rfl rfl

theorem bufPushf (a : Handle) (b : FReg) : Statement (.bufPushf a b) :=
  encodedLength rfl rfl rfl

theorem bufGeti (a : Handle) (b : IReg) : Statement (.bufGeti a b) :=
  encodedLength rfl rfl rfl

theorem bufGetf (a : Handle) (b : IReg) : Statement (.bufGetf a b) :=
  encodedLength rfl rfl rfl

theorem bufSlice (a b : Handle) (c : IReg) : Statement (.bufSlice a b c) :=
  encodedLength rfl rfl rfl

theorem bufConcat (a b : Handle) : Statement (.bufConcat a b) :=
  encodedLength rfl rfl rfl

theorem chGet (a b : Handle) (c : IReg) : Statement (.chGet a b c) :=
  encodedLength rfl rfl rfl

theorem pkNew (a : Handle) : Statement (.pkNew a) :=
  encodedLength rfl rfl rfl

theorem pkWrbits (a : Handle) (b c : IReg) : Statement (.pkWrbits a b c) :=
  encodedLength rfl rfl rfl

theorem pkWrbytes (a b : Handle) : Statement (.pkWrbytes a b) :=
  encodedLength rfl rfl rfl

theorem pkFlush (a b : Handle) : Statement (.pkFlush a b) :=
  encodedLength rfl rfl rfl

theorem stNew (a b : Handle) (circular : Bool) : Statement (.stNew a b circular) :=
  encodedLength rfl rfl rfl

theorem stRdbits (a b : Handle) (c : IReg) : Statement (.stRdbits a b c) :=
  encodedLength rfl rfl rfl

theorem stRdu (a : Handle) (b c : IReg) : Statement (.stRdu a b c) :=
  encodedLength rfl rfl rfl

theorem stRds (a : Handle) (b c : IReg) : Statement (.stRds a b c) :=
  encodedLength rfl rfl rfl

theorem stPeek (a b : Handle) : Statement (.stPeek a b) :=
  encodedLength rfl rfl rfl

theorem stRemain (a : Handle) : Statement (.stRemain a) :=
  encodedLength rfl rfl rfl

theorem trkNew (a b : Handle) (c : IReg) : Statement (.trkNew a b c) :=
  encodedLength rfl rfl rfl

theorem trkNext (a : Handle) (b : IReg) : Statement (.trkNext a b) :=
  encodedLength rfl rfl rfl

theorem trkTolist (a b : Handle) (c : IReg) : Statement (.trkTolist a b c) :=
  encodedLength rfl rfl rfl

theorem codecMan (a : Handle) : Statement (.codecMan a) :=
  encodedLength rfl rfl rfl

theorem codecRs (a : Handle) (b c : IReg) : Statement (.codecRs a b c) :=
  encodedLength rfl rfl rfl

theorem codecEnc (a b c : Handle) : Statement (.codecEnc a b c) :=
  encodedLength rfl rfl rfl

theorem codecDec (a b c d : Handle) : Statement (.codecDec a b c d) :=
  encodedLength rfl rfl rfl

theorem codecInfo (a : Handle) : Statement (.codecInfo a) :=
  encodedLength rfl rfl rfl

theorem carriers (a : Handle) (b : FReg) : Statement (.carriers a b) :=
  encodedLength rfl rfl rfl

theorem modNew (a : Handle) (m : ModKind) : Statement (.modNew a m) :=
  encodedLength rfl rfl rfl

theorem modRun (a b c d : Handle) : Statement (.modRun a b c d) :=
  encodedLength rfl rfl rfl

theorem modInfo (a b : Handle) : Statement (.modInfo a b) :=
  encodedLength rfl rfl rfl

theorem demNew (a : Handle) (m : ModKind) : Statement (.demNew a m) :=
  encodedLength rfl rfl rfl

theorem demRun (a b c : Handle) : Statement (.demRun a b c) :=
  encodedLength rfl rfl rfl

theorem demSoft (a b c : Handle) : Statement (.demSoft a b c) :=
  encodedLength rfl rfl rfl

theorem demAssemble (a b : Handle) (c : IReg) : Statement (.demAssemble a b c) :=
  encodedLength rfl rfl rfl

theorem demInfo (a : Handle) : Statement (.demInfo a) :=
  encodedLength rfl rfl rfl

theorem trGardner (a b : Handle) (c : IReg) : Statement (.trGardner a b c) :=
  encodedLength rfl rfl rfl

theorem trDecide (a b c : Handle) : Statement (.trDecide a b c) :=
  encodedLength rfl rfl rfl

theorem syncLocate (a b : Handle) : Statement (.syncLocate a b) :=
  encodedLength rfl rfl rfl

theorem syncMulti (a b : Handle) : Statement (.syncMulti a b) :=
  encodedLength rfl rfl rfl

end Sys2Proof.Laws.EncodedLength
end

