-- ==== Sys2Proof/Laws/State.lean ====
section
/-! SUPPORT. One lemma per field of the state and update of it, so that no proof unfolds a record
update. -/

namespace Sys2Proof.Machine

variable (s : State)

/-! ### putObj -/

@[simp] theorem State.putObj_dec (h : Handle) (o : Obj) :
    (s.putObj h o).dec = s.dec := rfl

@[simp] theorem State.putObj_iregs (h : Handle) (o : Obj) :
    (s.putObj h o).iregs = s.iregs := rfl

@[simp] theorem State.putObj_fregs (h : Handle) (o : Obj) :
    (s.putObj h o).fregs = s.fregs := rfl

@[simp] theorem State.putObj_rregs (h : Handle) (o : Obj) :
    (s.putObj h o).rregs = s.rregs := rfl

@[simp] theorem State.putObj_rfregs (h : Handle) (o : Obj) :
    (s.putObj h o).rfregs = s.rfregs := rfl

@[simp] theorem State.putObj_cfg (h : Handle) (o : Obj) :
    (s.putObj h o).cfg = s.cfg := rfl

@[simp] theorem State.putObj_status (h : Handle) (o : Obj) :
    (s.putObj h o).status = s.status := rfl

@[simp] theorem State.putObj_sticky (h : Handle) (o : Obj) :
    (s.putObj h o).sticky = s.sticky := rfl

@[simp] theorem State.putObj_errcmd (h : Handle) (o : Obj) :
    (s.putObj h o).errcmd = s.errcmd := rfl

@[simp] theorem State.putObj_slots (h : Handle) (o : Obj) :
    (s.putObj h o).slots = slotPut s.slots h.toNat o := rfl

@[simp] theorem State.putObj_hopDraws (h : Handle) (o : Obj) :
    (s.putObj h o).hopDraws = s.hopDraws := rfl

@[simp] theorem State.putObj_pending (h : Handle) (o : Obj) :
    (s.putObj h o).pending = s.pending := rfl

@[simp] theorem State.putObj_replies (h : Handle) (o : Obj) :
    (s.putObj h o).replies = s.replies := rfl

/-! ### freeObj -/

@[simp] theorem State.freeObj_dec (h : Handle) :
    (s.freeObj h).dec = s.dec := rfl

@[simp] theorem State.freeObj_iregs (h : Handle) :
    (s.freeObj h).iregs = s.iregs := rfl

@[simp] theorem State.freeObj_fregs (h : Handle) :
    (s.freeObj h).fregs = s.fregs := rfl

@[simp] theorem State.freeObj_rregs (h : Handle) :
    (s.freeObj h).rregs = s.rregs := rfl

@[simp] theorem State.freeObj_rfregs (h : Handle) :
    (s.freeObj h).rfregs = s.rfregs := rfl

@[simp] theorem State.freeObj_cfg (h : Handle) :
    (s.freeObj h).cfg = s.cfg := rfl

@[simp] theorem State.freeObj_status (h : Handle) :
    (s.freeObj h).status = s.status := rfl

@[simp] theorem State.freeObj_sticky (h : Handle) :
    (s.freeObj h).sticky = s.sticky := rfl

@[simp] theorem State.freeObj_errcmd (h : Handle) :
    (s.freeObj h).errcmd = s.errcmd := rfl

@[simp] theorem State.freeObj_slots (h : Handle) :
    (s.freeObj h).slots = slotErase s.slots h.toNat := rfl

@[simp] theorem State.freeObj_hopDraws (h : Handle) :
    (s.freeObj h).hopDraws = s.hopDraws := rfl

@[simp] theorem State.freeObj_pending (h : Handle) :
    (s.freeObj h).pending = s.pending := rfl

@[simp] theorem State.freeObj_replies (h : Handle) :
    (s.freeObj h).replies = s.replies := rfl

/-! ### setI -/

@[simp] theorem State.setI_dec (r : IReg) (v : Bits64) :
    (s.setI r v).dec = s.dec := rfl

@[simp] theorem State.setI_iregs (r : IReg) (v : Bits64) :
    (s.setI r v).iregs = s.iregs.set r v := rfl

@[simp] theorem State.setI_fregs (r : IReg) (v : Bits64) :
    (s.setI r v).fregs = s.fregs := rfl

@[simp] theorem State.setI_rregs (r : IReg) (v : Bits64) :
    (s.setI r v).rregs = s.rregs := rfl

@[simp] theorem State.setI_rfregs (r : IReg) (v : Bits64) :
    (s.setI r v).rfregs = s.rfregs := rfl

@[simp] theorem State.setI_cfg (r : IReg) (v : Bits64) :
    (s.setI r v).cfg = s.cfg := rfl

@[simp] theorem State.setI_status (r : IReg) (v : Bits64) :
    (s.setI r v).status = s.status := rfl

@[simp] theorem State.setI_sticky (r : IReg) (v : Bits64) :
    (s.setI r v).sticky = s.sticky := rfl

@[simp] theorem State.setI_errcmd (r : IReg) (v : Bits64) :
    (s.setI r v).errcmd = s.errcmd := rfl

@[simp] theorem State.setI_slots (r : IReg) (v : Bits64) :
    (s.setI r v).slots = s.slots := rfl

@[simp] theorem State.setI_hopDraws (r : IReg) (v : Bits64) :
    (s.setI r v).hopDraws = s.hopDraws := rfl

@[simp] theorem State.setI_pending (r : IReg) (v : Bits64) :
    (s.setI r v).pending = s.pending := rfl

@[simp] theorem State.setI_replies (r : IReg) (v : Bits64) :
    (s.setI r v).replies = s.replies := rfl

/-! ### setF -/

@[simp] theorem State.setF_dec (r : FReg) (v : Number) :
    (s.setF r v).dec = s.dec := rfl

@[simp] theorem State.setF_iregs (r : FReg) (v : Number) :
    (s.setF r v).iregs = s.iregs := rfl

@[simp] theorem State.setF_fregs (r : FReg) (v : Number) :
    (s.setF r v).fregs = s.fregs.set r v := rfl

@[simp] theorem State.setF_rregs (r : FReg) (v : Number) :
    (s.setF r v).rregs = s.rregs := rfl

@[simp] theorem State.setF_rfregs (r : FReg) (v : Number) :
    (s.setF r v).rfregs = s.rfregs := rfl

@[simp] theorem State.setF_cfg (r : FReg) (v : Number) :
    (s.setF r v).cfg = s.cfg := rfl

@[simp] theorem State.setF_status (r : FReg) (v : Number) :
    (s.setF r v).status = s.status := rfl

@[simp] theorem State.setF_sticky (r : FReg) (v : Number) :
    (s.setF r v).sticky = s.sticky := rfl

@[simp] theorem State.setF_errcmd (r : FReg) (v : Number) :
    (s.setF r v).errcmd = s.errcmd := rfl

@[simp] theorem State.setF_slots (r : FReg) (v : Number) :
    (s.setF r v).slots = s.slots := rfl

@[simp] theorem State.setF_hopDraws (r : FReg) (v : Number) :
    (s.setF r v).hopDraws = s.hopDraws := rfl

@[simp] theorem State.setF_pending (r : FReg) (v : Number) :
    (s.setF r v).pending = s.pending := rfl

@[simp] theorem State.setF_replies (r : FReg) (v : Number) :
    (s.setF r v).replies = s.replies := rfl

/-! ### setR -/

@[simp] theorem State.setR_dec (r : RReg) (v : Bits64) :
    (s.setR r v).dec = s.dec := rfl

@[simp] theorem State.setR_iregs (r : RReg) (v : Bits64) :
    (s.setR r v).iregs = s.iregs := rfl

@[simp] theorem State.setR_fregs (r : RReg) (v : Bits64) :
    (s.setR r v).fregs = s.fregs := rfl

@[simp] theorem State.setR_rregs (r : RReg) (v : Bits64) :
    (s.setR r v).rregs = s.rregs.set r v := rfl

@[simp] theorem State.setR_rfregs (r : RReg) (v : Bits64) :
    (s.setR r v).rfregs = s.rfregs := rfl

@[simp] theorem State.setR_cfg (r : RReg) (v : Bits64) :
    (s.setR r v).cfg = s.cfg := rfl

@[simp] theorem State.setR_status (r : RReg) (v : Bits64) :
    (s.setR r v).status = s.status := rfl

@[simp] theorem State.setR_sticky (r : RReg) (v : Bits64) :
    (s.setR r v).sticky = s.sticky := rfl

@[simp] theorem State.setR_errcmd (r : RReg) (v : Bits64) :
    (s.setR r v).errcmd = s.errcmd := rfl

@[simp] theorem State.setR_slots (r : RReg) (v : Bits64) :
    (s.setR r v).slots = s.slots := rfl

@[simp] theorem State.setR_hopDraws (r : RReg) (v : Bits64) :
    (s.setR r v).hopDraws = s.hopDraws := rfl

@[simp] theorem State.setR_pending (r : RReg) (v : Bits64) :
    (s.setR r v).pending = s.pending := rfl

@[simp] theorem State.setR_replies (r : RReg) (v : Bits64) :
    (s.setR r v).replies = s.replies := rfl

/-! ### setRNat -/

@[simp] theorem State.setRNat_dec (r : RReg) (n : Nat) :
    (s.setRNat r n).dec = s.dec := rfl

@[simp] theorem State.setRNat_iregs (r : RReg) (n : Nat) :
    (s.setRNat r n).iregs = s.iregs := rfl

@[simp] theorem State.setRNat_fregs (r : RReg) (n : Nat) :
    (s.setRNat r n).fregs = s.fregs := rfl

@[simp] theorem State.setRNat_rregs (r : RReg) (n : Nat) :
    (s.setRNat r n).rregs = s.rregs.set r (BitVec.ofNat 64 n) := rfl

@[simp] theorem State.setRNat_rfregs (r : RReg) (n : Nat) :
    (s.setRNat r n).rfregs = s.rfregs := rfl

@[simp] theorem State.setRNat_cfg (r : RReg) (n : Nat) :
    (s.setRNat r n).cfg = s.cfg := rfl

@[simp] theorem State.setRNat_status (r : RReg) (n : Nat) :
    (s.setRNat r n).status = s.status := rfl

@[simp] theorem State.setRNat_sticky (r : RReg) (n : Nat) :
    (s.setRNat r n).sticky = s.sticky := rfl

@[simp] theorem State.setRNat_errcmd (r : RReg) (n : Nat) :
    (s.setRNat r n).errcmd = s.errcmd := rfl

@[simp] theorem State.setRNat_slots (r : RReg) (n : Nat) :
    (s.setRNat r n).slots = s.slots := rfl

@[simp] theorem State.setRNat_hopDraws (r : RReg) (n : Nat) :
    (s.setRNat r n).hopDraws = s.hopDraws := rfl

@[simp] theorem State.setRNat_pending (r : RReg) (n : Nat) :
    (s.setRNat r n).pending = s.pending := rfl

@[simp] theorem State.setRNat_replies (r : RReg) (n : Nat) :
    (s.setRNat r n).replies = s.replies := rfl

/-! ### setRInt -/

@[simp] theorem State.setRInt_dec (r : RReg) (v : Int) :
    (s.setRInt r v).dec = s.dec := rfl

@[simp] theorem State.setRInt_iregs (r : RReg) (v : Int) :
    (s.setRInt r v).iregs = s.iregs := rfl

@[simp] theorem State.setRInt_fregs (r : RReg) (v : Int) :
    (s.setRInt r v).fregs = s.fregs := rfl

@[simp] theorem State.setRInt_rregs (r : RReg) (v : Int) :
    (s.setRInt r v).rregs = s.rregs.set r (BitVec.ofInt 64 v) := rfl

@[simp] theorem State.setRInt_rfregs (r : RReg) (v : Int) :
    (s.setRInt r v).rfregs = s.rfregs := rfl

@[simp] theorem State.setRInt_cfg (r : RReg) (v : Int) :
    (s.setRInt r v).cfg = s.cfg := rfl

@[simp] theorem State.setRInt_status (r : RReg) (v : Int) :
    (s.setRInt r v).status = s.status := rfl

@[simp] theorem State.setRInt_sticky (r : RReg) (v : Int) :
    (s.setRInt r v).sticky = s.sticky := rfl

@[simp] theorem State.setRInt_errcmd (r : RReg) (v : Int) :
    (s.setRInt r v).errcmd = s.errcmd := rfl

@[simp] theorem State.setRInt_slots (r : RReg) (v : Int) :
    (s.setRInt r v).slots = s.slots := rfl

@[simp] theorem State.setRInt_hopDraws (r : RReg) (v : Int) :
    (s.setRInt r v).hopDraws = s.hopDraws := rfl

@[simp] theorem State.setRInt_pending (r : RReg) (v : Int) :
    (s.setRInt r v).pending = s.pending := rfl

@[simp] theorem State.setRInt_replies (r : RReg) (v : Int) :
    (s.setRInt r v).replies = s.replies := rfl

/-! ### setRF -/

@[simp] theorem State.setRF_dec (r : RReg) (v : Number) :
    (s.setRF r v).dec = s.dec := rfl

@[simp] theorem State.setRF_iregs (r : RReg) (v : Number) :
    (s.setRF r v).iregs = s.iregs := rfl

@[simp] theorem State.setRF_fregs (r : RReg) (v : Number) :
    (s.setRF r v).fregs = s.fregs := rfl

@[simp] theorem State.setRF_rregs (r : RReg) (v : Number) :
    (s.setRF r v).rregs = s.rregs := rfl

@[simp] theorem State.setRF_rfregs (r : RReg) (v : Number) :
    (s.setRF r v).rfregs = s.rfregs.set r v := rfl

@[simp] theorem State.setRF_cfg (r : RReg) (v : Number) :
    (s.setRF r v).cfg = s.cfg := rfl

@[simp] theorem State.setRF_status (r : RReg) (v : Number) :
    (s.setRF r v).status = s.status := rfl

@[simp] theorem State.setRF_sticky (r : RReg) (v : Number) :
    (s.setRF r v).sticky = s.sticky := rfl

@[simp] theorem State.setRF_errcmd (r : RReg) (v : Number) :
    (s.setRF r v).errcmd = s.errcmd := rfl

@[simp] theorem State.setRF_slots (r : RReg) (v : Number) :
    (s.setRF r v).slots = s.slots := rfl

@[simp] theorem State.setRF_hopDraws (r : RReg) (v : Number) :
    (s.setRF r v).hopDraws = s.hopDraws := rfl

@[simp] theorem State.setRF_pending (r : RReg) (v : Number) :
    (s.setRF r v).pending = s.pending := rfl

@[simp] theorem State.setRF_replies (r : RReg) (v : Number) :
    (s.setRF r v).replies = s.replies := rfl

/-! ### setRFs -/

@[simp] theorem State.setRFs_dec (x0 x1 x2 x3 : Number) :
    (s.setRFs x0 x1 x2 x3).dec = s.dec := rfl

@[simp] theorem State.setRFs_iregs (x0 x1 x2 x3 : Number) :
    (s.setRFs x0 x1 x2 x3).iregs = s.iregs := rfl

@[simp] theorem State.setRFs_fregs (x0 x1 x2 x3 : Number) :
    (s.setRFs x0 x1 x2 x3).fregs = s.fregs := rfl

@[simp] theorem State.setRFs_rregs (x0 x1 x2 x3 : Number) :
    (s.setRFs x0 x1 x2 x3).rregs = s.rregs := rfl

@[simp] theorem State.setRFs_rfregs (x0 x1 x2 x3 : Number) :
    (s.setRFs x0 x1 x2 x3).rfregs = (((s.rfregs.set 0 x0).set 1 x1).set 2 x2).set 3 x3 := rfl

@[simp] theorem State.setRFs_cfg (x0 x1 x2 x3 : Number) :
    (s.setRFs x0 x1 x2 x3).cfg = s.cfg := rfl

@[simp] theorem State.setRFs_status (x0 x1 x2 x3 : Number) :
    (s.setRFs x0 x1 x2 x3).status = s.status := rfl

@[simp] theorem State.setRFs_sticky (x0 x1 x2 x3 : Number) :
    (s.setRFs x0 x1 x2 x3).sticky = s.sticky := rfl

@[simp] theorem State.setRFs_errcmd (x0 x1 x2 x3 : Number) :
    (s.setRFs x0 x1 x2 x3).errcmd = s.errcmd := rfl

@[simp] theorem State.setRFs_slots (x0 x1 x2 x3 : Number) :
    (s.setRFs x0 x1 x2 x3).slots = s.slots := rfl

@[simp] theorem State.setRFs_hopDraws (x0 x1 x2 x3 : Number) :
    (s.setRFs x0 x1 x2 x3).hopDraws = s.hopDraws := rfl

@[simp] theorem State.setRFs_pending (x0 x1 x2 x3 : Number) :
    (s.setRFs x0 x1 x2 x3).pending = s.pending := rfl

@[simp] theorem State.setRFs_replies (x0 x1 x2 x3 : Number) :
    (s.setRFs x0 x1 x2 x3).replies = s.replies := rfl

/-! ### recordStatus -/

@[simp] theorem State.recordStatus_dec (h : Word) (c : Nat) :
    (recordStatus s h c).dec = s.dec := rfl

@[simp] theorem State.recordStatus_iregs (h : Word) (c : Nat) :
    (recordStatus s h c).iregs = s.iregs := rfl

@[simp] theorem State.recordStatus_fregs (h : Word) (c : Nat) :
    (recordStatus s h c).fregs = s.fregs := rfl

@[simp] theorem State.recordStatus_rregs (h : Word) (c : Nat) :
    (recordStatus s h c).rregs = s.rregs := rfl

@[simp] theorem State.recordStatus_rfregs (h : Word) (c : Nat) :
    (recordStatus s h c).rfregs = s.rfregs := rfl

@[simp] theorem State.recordStatus_cfg (h : Word) (c : Nat) :
    (recordStatus s h c).cfg = s.cfg := rfl

@[simp] theorem State.recordStatus_status (h : Word) (c : Nat) :
    (recordStatus s h c).status = BitVec.ofNat 64 c := rfl

@[simp] theorem State.recordStatus_sticky (h : Word) (c : Nat) :
    (recordStatus s h c).sticky = stickyAfter s.sticky c := rfl

@[simp] theorem State.recordStatus_errcmd (h : Word) (c : Nat) :
    (recordStatus s h c).errcmd = errcmdAfter s.errcmd h c := rfl

@[simp] theorem State.recordStatus_slots (h : Word) (c : Nat) :
    (recordStatus s h c).slots = s.slots := rfl

@[simp] theorem State.recordStatus_hopDraws (h : Word) (c : Nat) :
    (recordStatus s h c).hopDraws = s.hopDraws := rfl

@[simp] theorem State.recordStatus_pending (h : Word) (c : Nat) :
    (recordStatus s h c).pending = s.pending := rfl

@[simp] theorem State.recordStatus_replies (h : Word) (c : Nat) :
    (recordStatus s h c).replies = s.replies := rfl

/-! ### resetBlock (R700) -/

@[simp] theorem State.resetBlock_dec (P : Params) :
    (s.resetBlock P).dec = .idle := rfl

@[simp] theorem State.resetBlock_iregs (P : Params) :
    (s.resetBlock P).iregs = Vector.replicate 16 0 := rfl

@[simp] theorem State.resetBlock_fregs (P : Params) :
    (s.resetBlock P).fregs = Vector.replicate 16 (P.num.ofInt 0) := rfl

@[simp] theorem State.resetBlock_rregs (P : Params) :
    (s.resetBlock P).rregs = Vector.replicate 4 0 := rfl

@[simp] theorem State.resetBlock_rfregs (P : Params) :
    (s.resetBlock P).rfregs = Vector.replicate 4 (P.num.ofInt 0) := rfl

@[simp] theorem State.resetBlock_cfg (P : Params) :
    (s.resetBlock P).cfg = Cfg.resetWith P := rfl

@[simp] theorem State.resetBlock_status (P : Params) :
    (s.resetBlock P).status = 0 := rfl

@[simp] theorem State.resetBlock_sticky (P : Params) :
    (s.resetBlock P).sticky = 0 := rfl

@[simp] theorem State.resetBlock_errcmd (P : Params) :
    (s.resetBlock P).errcmd = 0 := rfl

@[simp] theorem State.resetBlock_slots (P : Params) :
    (s.resetBlock P).slots = [] := rfl

@[simp] theorem State.resetBlock_hopDraws (P : Params) :
    (s.resetBlock P).hopDraws = s.hopDraws := rfl

@[simp] theorem State.resetBlock_pending (P : Params) :
    (s.resetBlock P).pending = s.pending := rfl

@[simp] theorem State.resetBlock_replies (P : Params) :
    (s.resetBlock P).replies = s.replies := rfl

/-! ### Registers -/

@[simp] theorem State.getI_setI (r q : IReg) (v : Bits64) :
    (s.setI r v).getI q = if r = q then v else s.getI q := by
  simp [State.getI, State.setI, Vector.getElem_set, Fin.ext_iff]

@[simp] theorem State.getF_setF (r q : FReg) (v : Number) :
    (s.setF r v).getF q = if r = q then v else s.getF q := by
  simp [State.getF, State.setF, Vector.getElem_set, Fin.ext_iff]

@[simp] theorem State.getR_setR (r q : RReg) (v : Bits64) :
    (s.setR r v).getR q = if r = q then v else s.getR q := by
  simp [State.getR, State.setR, Vector.getElem_set, Fin.ext_iff]

@[simp] theorem State.getRF_setRF (r q : RReg) (v : Number) :
    (s.setRF r v).getRF q = if r = q then v else s.getRF q := by
  simp [State.getRF, State.setRF, Vector.getElem_set, Fin.ext_iff]

end Sys2Proof.Machine
end

