-- ==== Sys2Proof/Machine/Binary64.lean ====
section
/-! DEFINITION. The reference instance of the number format: IEEE 754 binary64, round to nearest, ties to
even (R7; 93_implementation_defined.md U2). The machine does not assume it (`Config.params` is
opaque); it is the instance under which the number vectors of 95_test_vectors.md are stated. A number's
code is its 64-bit pattern, so the transport conversions are the identity on patterns (R203). PRESUMED, from the standard (notes/assumptions/14.md). -/

namespace Sys2Proof.Machine

/-- A binary64 datum, unpacked: a finite number is `mant * 2 ^ expo`, negated when `neg`. -/
inductive B64 where
  | nan
  | inf (neg : Bool)
  | fin (neg : Bool) (mant : Nat) (expo : Int)
deriving DecidableEq, Repr

/-- The datum of a 64-bit pattern. -/
def b64Unpack (x : Number) : B64 :=
  let v : Nat := x.code % 2 ^ 64
  let neg : Bool := 2 ^ 63 ≤ v
  let biased : Nat := v / 2 ^ 52 % 2048
  let frac : Nat := v % 2 ^ 52
  if biased = 2047 then (if frac = 0 then .inf neg else .nan)
  else if biased = 0 then .fin neg frac (-1074)
  else .fin neg (2 ^ 52 + frac) ((biased : Int) - 1075)

/-- The pattern with a sign, a biased exponent and a fraction. -/
def b64Pattern (neg : Bool) (biased frac : Nat) : Number :=
  ⟨(if neg then 2 ^ 63 else 0) + biased * 2 ^ 52 + frac⟩

/-- The quiet NaN every NaN result is given as. -/
def b64NaN : Number := b64Pattern false 2047 (2 ^ 51)

/-- Infinity of a sign. -/
def b64Inf (neg : Bool) : Number := b64Pattern neg 2047 0

/-- `n / d` to the nearest integer, ties to even. -/
def roundDiv (n d : Nat) : Nat :=
  let q := n / d
  let r := n % d
  if d < 2 * r || (2 * r = d && q % 2 = 1) then q + 1 else q

/-- `2 ^ e` for a non-negative exponent, 1 for a negative one. -/
def powPos (e : Int) : Nat := 2 ^ e.toNat

/-- The binary64 number nearest to `n / d`, for `d > 0`. -/
def b64Round (neg : Bool) (n d : Nat) : Number :=
  if n = 0 then b64Pattern neg 0 0
  else
    let e0 : Int := (Nat.log2 n : Int) - (Nat.log2 d : Int) - 52
    let e1 := if n * powPos (-e0) / (d * powPos e0) < 2 ^ 52 then e0 - 1 else e0
    let e2 := max e1 (-1074)
    let q := roundDiv (n * powPos (-e2)) (d * powPos e2)
    let (q3, e3) := if q = 2 ^ 53 then (2 ^ 52, e2 + 1) else (q, e2)
    if q3 < 2 ^ 52 then b64Pattern neg 0 q3
    else
      let biased := (e3 + 1075).toNat
      if 2047 ≤ biased then b64Inf neg else b64Pattern neg biased (q3 - 2 ^ 52)

/-- The signed integer mantissa of a finite datum. -/
def signedMant (neg : Bool) (m : Nat) : Int := if neg then -(m : Int) else m

/-- A finite datum as an integer multiple of `2 ^ e`, for `e` at most its exponent. -/
def scaledMant (neg : Bool) (m : Nat) (e' e : Int) : Int := signedMant neg m * powPos (e' - e)

/-- The sum (R7). -/
def b64Add (x y : Number) : Number :=
  match b64Unpack x, b64Unpack y with
  | .nan, _ | _, .nan => b64NaN
  | .inf a, .inf b => if a = b then b64Inf a else b64NaN
  | .inf a, .fin _ _ _ => b64Inf a
  | .fin _ _ _, .inf b => b64Inf b
  | .fin a m e, .fin b n f =>
    let g := min e f
    let t := scaledMant a m e g + scaledMant b n f g
    if t = 0 then b64Pattern (a && b) 0 0
    else b64Round (t < 0) (t.natAbs * powPos g) (powPos (-g))

/-- Negation flips the sign bit. -/
def b64Neg (x : Number) : Number :=
  if 2 ^ 63 ≤ x.code % 2 ^ 64 then ⟨x.code % 2 ^ 64 - 2 ^ 63⟩ else ⟨x.code % 2 ^ 64 + 2 ^ 63⟩

/-- The magnitude clears the sign bit. -/
def b64Abs (x : Number) : Number := ⟨x.code % 2 ^ 63⟩

/-- The product (R7). -/
def b64Mul (x y : Number) : Number :=
  match b64Unpack x, b64Unpack y with
  | .nan, _ | _, .nan => b64NaN
  | .inf a, .inf b => b64Inf (a != b)
  | .inf a, .fin b m _ | .fin b m _, .inf a => if m = 0 then b64NaN else b64Inf (a != b)
  | .fin a m e, .fin b n f =>
    b64Round (a != b) (m * n * powPos (e + f)) (powPos (-(e + f)))

/-- The quotient (R7). -/
def b64Div (x y : Number) : Number :=
  match b64Unpack x, b64Unpack y with
  | .nan, _ | _, .nan => b64NaN
  | .inf _, .inf _ => b64NaN
  | .inf a, .fin b _ _ => b64Inf (a != b)
  | .fin a _ _, .inf b => b64Pattern (a != b) 0 0
  | .fin a m e, .fin b n f =>
    if n = 0 then (if m = 0 then b64NaN else b64Inf (a != b))
    else b64Round (a != b) (m * powPos (e - f)) (n * powPos (f - e))

/-- The order of two numbers; `none` with a NaN. -/
def b64Compare (x y : Number) : Option Ordering :=
  match b64Unpack x, b64Unpack y with
  | .nan, _ | _, .nan => none
  | .inf a, .inf b => some (if a = b then .eq else if a then .lt else .gt)
  | .inf a, .fin _ _ _ => some (if a then .lt else .gt)
  | .fin _ _ _, .inf b => some (if b then .gt else .lt)
  | .fin a m e, .fin b n f =>
    let g := min e f
    some (compare (scaledMant a m e g) (scaledMant b n f g))

/-- Whether a number is neither infinite nor a NaN. -/
def b64IsFinite (x : Number) : Bool :=
  match b64Unpack x with
  | .fin _ _ _ => true
  | .nan | .inf _ => false

/-- The reference instance (R7, U2): every comparison with a NaN is false (U21). -/
def binary64 : NumOps where
  add := b64Add
  sub x y := b64Add x (b64Neg y)
  mul := b64Mul
  div := b64Div
  neg := b64Neg
  abs := b64Abs
  lt x y := b64Compare x y == some .lt
  le x y := b64Compare x y == some .lt || b64Compare x y == some .eq
  eq x y := b64Compare x y == some .eq
  gt x y := b64Compare x y == some .gt
  ge x y := b64Compare x y == some .gt || b64Compare x y == some .eq
  isFinite := b64IsFinite
  ofInt n := b64Round (n < 0) n.natAbs 1
  ofBinary64 v := ⟨v.toNat⟩
  toBinary64 x := BitVec.ofNat 64 x.code

end Sys2Proof.Machine
end

