-- ==== Sys2Proof/Tests/Slice0.lean ====
section
/-! SUPPORT. Tests: the well-formedness smoke, one word of every command written out from its encoding
(30_encoding.md R131 to R140), one or two steps of every command with results taken from the examples of
its rule or from 95_test_vectors.md (V-… names the vector), and a witness for the hypotheses of every
obligation. -/

namespace Sys2Proof.Tests

open Sys2Proof.Machine

/-! ### Well-formedness: a term each check refuses, and the bound it accepts -/

theorem test_wf_cfgWri_refuses_num_register : (Instr.cfgWri .carrier 0).WellFormed = false := by decide

theorem test_wf_cfgWri_accepts_dsps : (Instr.cfgWri .dsps 0).WellFormed = true := by decide

theorem test_wf_cfgWrf_refuses_int_register : (Instr.cfgWrf .dsps 0).WellFormed = false := by decide

theorem test_wf_bufNew_refuses_packer : (Instr.bufNew 1 .packer).WellFormed = false := by decide

theorem test_wf_carriers_refuses_block_14 : (Instr.carriers 4 14).WellFormed = false := by decide

theorem test_wf_carriers_accepts_block_13 : (Instr.carriers 4 13).WellFormed = true := by decide

/-! ### Decoding: words written out from the encodings -/

theorem test_decode_nop : decode [0x00000000] = .ok (.nop) := by decide

theorem test_decode_seti : decode [0x00000201, 0x00000000, 0x0000001B] = .ok (.seti 2 0x1B) := by decide

theorem test_decode_setf : decode [0x00000002, 0x40D38800, 0x00000000] = .ok (.setf 0 0x40D3880000000000) := by decide

theorem test_decode_movr : decode [0x00020003] = .ok (.movr 0 2) := by decide

theorem test_decode_addi : decode [0xFF070704] = .ok (.addi 7 7 0xFF) := by decide

theorem test_decode_cfgWri : decode [0x000F0205] = .ok (.cfgWri .sps 15) := by decide

theorem test_decode_cfgWrf : decode [0x000F0A06] = .ok (.cfgWrf .gthresh 15) := by decide

theorem test_decode_cfgRd : decode [0x00000A07] = .ok (.cfgRd .gthresh) := by decide

theorem test_decode_clrerr : decode [0x00000008] = .ok (.clrerr) := by decide

theorem test_decode_reset : decode [0x00000009] = .ok (.reset) := by decide

theorem test_decode_movrf : decode [0x0000030A] = .ok (.movrf 3 0) := by decide

theorem test_decode_bufNew : decode [0x00010110] = .ok (.bufNew 1 .bytes) := by decide

theorem test_decode_bufFree : decode [0x00000511] = .ok (.bufFree 5) := by decide

theorem test_decode_bufLen : decode [0x00000112] = .ok (.bufLen 1) := by decide

theorem test_decode_bufPushi : decode [0x000F0113] = .ok (.bufPushi 1 15) := by decide

theorem test_decode_bufPushf : decode [0x000F0214] = .ok (.bufPushf 2 15) := by decide

theorem test_decode_bufGeti : decode [0x00000115] = .ok (.bufGeti 1 0) := by decide

theorem test_decode_bufGetf : decode [0x00000216] = .ok (.bufGetf 2 0) := by decide

theorem test_decode_bufSlice : decode [0x04030617] = .ok (.bufSlice 6 3 4) := by decide

theorem test_decode_bufConcat : decode [0x00020118] = .ok (.bufConcat 1 2) := by decide

theorem test_decode_chGet : decode [0x00070819] = .ok (.chGet 8 7 0) := by decide

theorem test_decode_pkNew : decode [0x00000120] = .ok (.pkNew 1) := by decide

theorem test_decode_pkWrbits : decode [0x03020121] = .ok (.pkWrbits 1 2 3) := by decide

theorem test_decode_pkWrbytes : decode [0x00020122] = .ok (.pkWrbytes 1 2) := by decide

theorem test_decode_pkFlush : decode [0x00010323] = .ok (.pkFlush 3 1) := by decide

theorem test_decode_stNew : decode [0x01020324] = .ok (.stNew 3 2 true) := by decide

theorem test_decode_stRdbits : decode [0x00040325] = .ok (.stRdbits 3 4 0) := by decide

theorem test_decode_stRdu : decode [0x01020326] = .ok (.stRdu 3 2 1) := by decide

theorem test_decode_stRds : decode [0x01020327] = .ok (.stRds 3 2 1) := by decide

theorem test_decode_stPeek : decode [0x00050328] = .ok (.stPeek 3 5) := by decide

theorem test_decode_stRemain : decode [0x00000329] = .ok (.stRemain 3) := by decide

theorem test_decode_trkNew : decode [0x00010230] = .ok (.trkNew 2 1 0) := by decide

theorem test_decode_trkNext : decode [0x00030231] = .ok (.trkNext 2 3) := by decide

theorem test_decode_trkTolist : decode [0x00010232] = .ok (.trkTolist 2 1 0) := by decide

theorem test_decode_codecMan : decode [0x00000940] = .ok (.codecMan 9) := by decide

theorem test_decode_codecRs : decode [0x01000941] = .ok (.codecRs 9 0 1) := by decide

theorem test_decode_codecEnc : decode [0x01090242] = .ok (.codecEnc 2 9 1) := by decide

theorem test_decode_codecDec : decode [0x01090243, 0x00000008] = .ok (.codecDec 2 9 1 8) := by decide

theorem test_decode_codecInfo : decode [0x00000944] = .ok (.codecInfo 9) := by decide

theorem test_decode_carriers : decode [0x00000450] = .ok (.carriers 4 0) := by decide

theorem test_decode_modNew : decode [0x00010551] = .ok (.modNew 5 .ofdm) := by decide

theorem test_decode_modRun : decode [0x03040552, 0x00000002] = .ok (.modRun 5 4 3 2) := by decide

theorem test_decode_modInfo : decode [0x00050853] = .ok (.modInfo 8 5) := by decide

theorem test_decode_demNew : decode [0x00020660] = .ok (.demNew 6 .fhss) := by decide

theorem test_decode_demRun : decode [0x02060761] = .ok (.demRun 7 6 2) := by decide

theorem test_decode_demSoft : decode [0x02060762] = .ok (.demSoft 7 6 2) := by decide

theorem test_decode_demAssemble : decode [0x00070863] = .ok (.demAssemble 8 7 0) := by decide

theorem test_decode_demInfo : decode [0x00000664] = .ok (.demInfo 6) := by decide

theorem test_decode_trGardner : decode [0x00070868] = .ok (.trGardner 8 7 0) := by decide

theorem test_decode_trDecide : decode [0x08070969] = .ok (.trDecide 9 7 8) := by decide

theorem test_decode_syncLocate : decode [0x00020370] = .ok (.syncLocate 3 2) := by decide

theorem test_decode_syncMulti : decode [0x00020771] = .ok (.syncMulti 7 2) := by decide

/-- V-CTL-5. -/
theorem test_decode_refuses_nop_with_field : decode [0x00000100] = .error .reservedField := by decide

/-- V-CTL-6. -/
theorem test_decode_refuses_undefined_opcode : decode [0x0000000B] = .error .undefinedOpcode := by decide

/-- V-CTL-7. -/
theorem test_decode_refuses_seti_register_16 : decode [0x00001001, 0x00000000, 0x00000005] = .error .registerField := by decide

/-- V-CTL-14. -/
theorem test_decode_refuses_movr_r4 : decode [0x00040003] = .error .registerField := by decide

/-- V-CTL-15. -/
theorem test_decode_refuses_cfgWri_num_register : decode [0x00000705] = .error .configField := by decide

/-- V-BUF-4. -/
theorem test_decode_refuses_bufNew_kind_6 : decode [0x00060010] = .error .kindField := by decide

/-- V-ST-16. -/
theorem test_decode_refuses_stNew_mode_2 : decode [0x02020324] = .error .modeField := by decide

/-- V-CAR-7. -/
theorem test_decode_refuses_carriers_block_14 : decode [0x000E0450] = .error .blockField := by decide

/-- V-MAN-11. -/
theorem test_decode_refuses_codecDec_extension : decode [0x01090243, 0x00000100] = .error .reservedExtension := by decide

/-- R133: a three-word command with two words is none. -/
theorem test_decode_refuses_short_command : decode [0x00000201, 0x00000000] = .error .wordCount := by decide

/-- The opcode table numbers the first word's bits from 0 and a later word's from 32. -/
theorem test_decodeTableWord_modRun :
    decodeTableWord 64 0x0000000203040552 = some (.modRun 5 4 3 2) := by decide

/-! ### One step on a small state -/

/-- The state after a command; every command ends in a next state. -/
def after (i : Instr) (s : State) : State :=
  match exec i s with
  | .next t => t
  | .fault _ => s
  | .refused _ => s

/-- The reset state with some slots and some integer registers. -/
def start (slots : Slots) (regs : List (IReg × Bits64)) : State :=
  regs.foldl (fun s p => s.setI p.1 p.2) { State.reset with slots := slots }

/-- The object in a slot. -/
def slot (s : State) (h : Nat) : Option Obj := slotGet s.slots h

/-- V-CTL-4. -/
theorem test_nop_status : (after .nop { State.reset with status := 7 }).status = 0 := by decide

/-- R202's example. -/
theorem test_seti : (after (.seti 2 0x1B) State.reset).getI 2 = 0x1B := by decide

/-- V-CTL-13. -/
theorem test_movr : (after (.movr 0 2) (State.reset.setR 2 7)).getI 0 = 7 := by decide

/-- V-CTL-8. -/
theorem test_addi_wraps :
    (after (.addi 3 3 1) (start [] [(3, 0xFFFFFFFFFFFFFFFF)])).getI 3 = 0 := by decide

/-- V-CTL-11. -/
theorem test_addi_negative : (after (.addi 7 7 0xFF) (start [] [(7, 0x1234)])).getI 7 = 0x1233 := by
  decide

/-- R205: any value is stored. -/
theorem test_cfgWri : (after (.cfgWri .sps 1) (start [] [(1, 4)])).cfg.sps = 4 := by decide

/-- R207: an `Int` register goes to `R0`. -/
theorem test_cfgRd_int :
    (after (.cfgRd .bwdiv) { State.reset with cfg := { State.reset.cfg with bwdiv := 6 } }).getR 0 = 6 := by
  decide

/-- V-CTL-16. -/
theorem test_clrerr :
    (after .clrerr { State.reset with sticky := 4, errcmd := 0x080A0527 }).sticky = 0 ∧
    (after .clrerr { State.reset with sticky := 4, errcmd := 0x080A0527 }).errcmd = 0x080A0527 := by
  decide

/-- V-CTL-18. -/
theorem test_reset :
    slot (after .reset (start [(1, .bytes [1])] [(1, 4)])) 1 = none ∧
    (after .reset (start [(1, .bytes [1])] [(1, 4)])).getI 1 = 0 := by decide

/-- V-BUF-1. -/
theorem test_bufNew : slot (after (.bufNew 1 .bytes) State.reset) 1 = some (.bytes []) := by decide

/-- V-BUF-2, V-BUF-3. -/
theorem test_bufNew_refusals :
    (after (.bufNew 1 .reals) (start [(1, .bytes [])] [])).status = 9 ∧
    (after (.bufNew 0 .bytes) State.reset).status = 7 := by decide

/-- V-BUF-25. -/
theorem test_bufFree :
    slot (after (.bufFree 5) (start [(5, .packer [])] [])) 5 = none ∧
    (after (.bufFree 5) State.reset).status = 7 := by decide

/-- V-BUF-23. -/
theorem test_bufLen :
    (after (.bufLen 1) (start [(1, .packer (List.replicate 13 true))] [])).getR 0 = 13 ∧
    (after (.bufLen 1) (start [(1, .packer (List.replicate 13 true))] [])).getR 1 = 7 := by decide

/-- V-BUF-5, V-BUF-9. -/
theorem test_bufPushi :
    slot (after (.bufPushi 1 15) (start [(1, .bytes [])] [(15, 0xA5)])) 1 = some (.bytes [0xA5]) ∧
    slot (after (.bufPushi 4 0) (start [(4, .indices [])] [(0, -5)])) 4 = some (.indices [-5]) := by
  decide

/-- V-BUF-6, V-BUF-7, V-BUF-8, V-BUF-10. -/
theorem test_bufPushi_refusals :
    (after (.bufPushi 1 15) (start [(1, .bytes [])] [(15, 256)])).status = 8 ∧
    (after (.bufPushi 1 15) (start [(1, .bytes [])] [(15, -1)])).status = 8 ∧
    (after (.bufPushi 2 0) (start [(2, .reals [])] [])).status = 12 ∧
    (after (.bufPushi 5 0) (start [(5, .mask [])] [(0, 2)])).status = 8 := by decide

/-- R216: the value is appended at the end. -/
theorem test_bufPushf :
    slot (after (.bufPushf 2 3) ((start [(2, .reals [⟨8⟩])] []).setF 3 ⟨9⟩)) 2 =
      some (.reals [⟨8⟩, ⟨9⟩]) := by decide

/-- V-BUF-11, V-BUF-12. -/
theorem test_bufGeti :
    (after (.bufGeti 1 0) (start [(1, .bytes [0x95, 0x55])] [(0, 1)])).getR 0 = 0x55 ∧
    (after (.bufGeti 1 0) (start [(1, .bytes [0x95, 0x55])] [(0, 2)])).status = 8 := by decide

/-- R218. -/
theorem test_bufGetf :
    (after (.bufGetf 2 0) (start [(2, .reals [⟨8⟩, ⟨9⟩])] [(0, 1)])).getRF 0 = ⟨9⟩ := by decide

/-- V-BUF-14, V-BUF-16. -/
theorem test_bufSlice :
    slot (after (.bufSlice 6 3 4) (start [(3, .symbols [1, 1, 0, 1, 0])] [(4, 3)])) 6 =
      some (.symbols [1, 0]) ∧
    (after (.bufSlice 6 3 4) (start [(3, .symbols [1, 1, 0, 1, 0])] [(4, -1)])).status = 8 := by decide

/-- V-BUF-18, V-BUF-19. -/
theorem test_bufConcat :
    slot (after (.bufConcat 1 2) (start [(1, .bytes [0xF0]), (2, .bytes [0x99, 0x66])] [])) 1 =
      some (.bytes [0xF0, 0x99, 0x66]) ∧
    slot (after (.bufConcat 1 1) (start [(1, .bytes [0xF0])] [])) 1 = some (.bytes [0xF0, 0xF0]) := by
  decide

/-- V-BUF-21, V-BUF-22. -/
theorem test_chGet :
    slot (after (.chGet 8 7 0) (start [(7, .chanSyms ⟨[0, 1], [[1, 1]]⟩)] [(0, 1)])) 8 =
      some (.symbols [1, 1]) ∧
    (after (.chGet 8 7 0) (start [(7, .chanSyms ⟨[0, 1], [[1, 1]]⟩)] [(0, 2)])).status = 8 := by decide

/-- R250. -/
theorem test_pkNew : slot (after (.pkNew 1) State.reset) 1 = some (.packer []) := by decide

/-- V-BIT-1. -/
theorem test_pkWrbits :
    slot (after (.pkWrbits 1 2 3) (start [(1, .packer [])] [(2, 0x1B), (3, 8)])) 1 =
      some (.packer [false, false, false, true, true, false, true, true]) := by decide

/-- V-BIT-6, V-BIT-7, V-BIT-9. -/
theorem test_pkWrbits_refusals :
    (after (.pkWrbits 1 2 3) (start [(1, .packer [])] [(3, 0)])).status = 6 ∧
    (after (.pkWrbits 1 2 3) (start [(1, .packer [])] [(2, 4), (3, 2)])).status = 8 ∧
    (after (.pkWrbits 9 2 3) (start [] [(3, 0)])).status = 7 := by decide

/-- V-BIT-2. -/
theorem test_pkWrbytes :
    slot (after (.pkWrbytes 1 2) (start [(1, .packer [true, false, true]), (2, .bytes [0xFF])] [])) 1 =
      some (.packer [true, false, true, true, true, true, true, true, true, true, true]) := by decide

/-- V-BIT-2, V-BIT-3. -/
theorem test_pkFlush :
    slot (after (.pkFlush 3 1)
      (start [(1, .packer [true, false, true, true, true, true, true, true, true, true, true])] [])) 3 =
        some (.bytes [0xBF, 0xE0]) ∧
    slot (after (.pkFlush 3 1) (start [(1, .packer [true, false, true])] [])) 3 =
      some (.bytes [0xA0]) := by decide

/-- R260's example. -/
theorem test_stNew :
    slot (after (.stNew 3 2 true) (start [(2, .bytes [0x1B])] [])) 3 = some (.stream ⟨2, true, 0⟩) := by
  decide

/-- V-ST-1, V-ST-11. -/
theorem test_stRdbits :
    slot (after (.stRdbits 3 4 0)
      (start [(2, .bytes [0x95, 0x55]), (3, .stream ⟨2, false, 4⟩)] [(0, 8)])) 4 =
        some (.bytes [0x55]) ∧
    slot (after (.stRdbits 3 4 0) (start [(2, .bytes [0x1B]), (3, .stream ⟨2, true, 0⟩)] [(0, 12)])) 4 =
      some (.bytes [0x1B, 0x10]) := by decide

/-- V-ST-2: a short read keeps its effects and reports them. -/
theorem test_stRdbits_short :
    (after (.stRdbits 3 4 0)
      (start [(2, .bytes [0x95, 0x55]), (3, .stream ⟨2, false, 4⟩)] [(0, 16)])).getR 0 = 12 ∧
    (after (.stRdbits 3 4 0)
      (start [(2, .bytes [0x95, 0x55]), (3, .stream ⟨2, false, 4⟩)] [(0, 16)])).status = 2 := by decide

/-- V-ST-7, V-ST-13. -/
theorem test_stRdu :
    (after (.stRdu 3 2 1) (start [(2, .bytes [0xF3]), (3, .stream ⟨2, false, 6⟩)] [(1, 4)])).getI 2 = 12 ∧
    (after (.stRdu 3 2 1) (start [(2, .bytes []), (3, .stream ⟨2, true, 0⟩)] [(1, 33)])).status = 6 := by
  decide

/-- V-ST-8, V-ST-12. -/
theorem test_stRds :
    (after (.stRds 3 2 1) (start [(2, .bytes [0xF3]), (3, .stream ⟨2, false, 6⟩)] [(1, 4)])).getI 2 = -4 ∧
    (after (.stRds 3 2 1) (start [(2, .bytes []), (3, .stream ⟨2, true, 0⟩)] [(1, 2)])).status = 13 := by
  decide

/-- V-ST-6. -/
theorem test_stPeek :
    (after (.stPeek 3 5) (start [(2, .bytes [0x95, 0x55]), (3, .stream ⟨2, false, 4⟩)] [])).getR 1 = 16 ∧
    slot (after (.stPeek 3 5) (start [(2, .bytes [0x95, 0x55]), (3, .stream ⟨2, false, 4⟩)] [])) 5 =
      some (.bytes [0x95, 0x55]) := by decide

/-- V-ST-5, V-ST-14. -/
theorem test_stRemain :
    (after (.stRemain 3) (start [(2, .bytes [0x95, 0x55]), (3, .stream ⟨2, false, 4⟩)] [])).getR 0 = 12 ∧
    (after (.stRemain 3) (start [(3, .stream ⟨2, false, 4⟩)] [])).status = 7 := by decide

/-- V-TRK-4, and the Tracker R300 makes. -/
theorem test_trkNew :
    slot (after (.trkNew 2 1 0) (start [(1, .bytes [0xB4])] [(0, 2)])) 2 = some (.tracker ⟨1, 2, 0⟩) ∧
    (after (.trkNew 2 1 0) (start [(1, .bytes [0xB4])] [(0, 9)])).status = 6 := by decide

/-- V-TRK-2: the second symbol, and `None` with the partial bits consumed. -/
theorem test_trkNext :
    (after (.trkNext 2 3) (start [(1, .bytes [0xB4]), (2, .tracker ⟨1, 3, 3⟩)] [])).getI 3 = 5 ∧
    slot (after (.trkNext 2 3) (start [(1, .bytes [0xB4]), (2, .tracker ⟨1, 3, 6⟩)] [])) 2 =
      some (.tracker ⟨1, 3, 8⟩) := by decide

/-- V-TRK-9. -/
theorem test_trkTolist :
    slot (after (.trkTolist 2 1 0) (start [(1, .bytes [0x1B, 0x80])] [(0, 3)])) 2 =
      some (.symbols [0, 6, 7, 0, 0]) := by decide

/-- V-MAN-9 after CODEC_MAN. -/
theorem test_codecMan_codecInfo :
    slot (after (.codecMan 9) State.reset) 9 = some (.codec ⟨.manchester, 2, 1⟩) ∧
    (after (.codecInfo 9) (start [(9, .codec ⟨.manchester, 2, 1⟩)] [])).getR 0 = 2 ∧
    (after (.codecInfo 9) (start [(9, .codec ⟨.rs, 16, 8⟩)] [])).getR 2 = 1 := by decide

/-- V-RS-6, V-RS-9. -/
theorem test_codecRs_refusals :
    (after (.codecRs 9 0 1) (start [] [(0, 12), (1, 8)])).status = 5 ∧
    (after (.codecRs 9 0 1) (start [] [(0, 0), (1, 8)])).status = 5 := by decide

/-- V-MAN-1, V-MAN-4. -/
theorem test_codecEnc_manchester :
    slot (after (.codecEnc 2 9 1) (start [(1, .bytes [0xA5]), (9, .codec ⟨.manchester, 2, 1⟩)] [])) 2 =
      some (.bytes [0x99, 0x66]) ∧
    manEnc [0x0F, 0x01] = [0x55, 0xAA, 0x55, 0x56] := by decide

/-- V-MAN-5: the substituted bits, the mask and the status. -/
theorem test_codecDec_manchester :
    slot (after (.codecDec 2 9 1 8)
      (start [(1, .bytes [0x99, 0x06]), (8, .mask []), (9, .codec ⟨.manchester, 2, 1⟩)] [])) 8 =
        some (.mask [true]) ∧
    (after (.codecDec 2 9 1 8)
      (start [(1, .bytes [0x99, 0x06]), (8, .mask []), (9, .codec ⟨.manchester, 2, 1⟩)] [])).status = 1 := by
  decide

/-- V-MAN-7. -/
theorem test_manDec :
    manDec [0x99, 0x66, 0xAA, 0xFF] = ([0xA5, 0xFF], [12, 13, 14, 15]) ∧
    markMask [] 2 [12, 13, 14, 15] = [false, true] := by decide

/-- V-DEM-5, V-DEM-7. -/
theorem test_demAssemble :
    slot (after (.demAssemble 8 7 0) (start [(7, .chanSyms ⟨[1, 0, 1], [[0, 0, 1]]⟩)] [(0, 1)])) 8 =
      some (.symbols [0, 0, 1, 1]) ∧
    (after (.demAssemble 8 7 0) (start [(7, .chanSyms ⟨[1, 0, 1], [[0, 0, 1]]⟩)] [(0, -1)])).status = 8 := by
  decide

/-- V-GAR-5, V-GAR-9. -/
theorem test_timing_refusals :
    (after (.trGardner 8 7 0) (start [(7, .reals [])] [(0, 1)])).status = 8 ∧
    (after (.trDecide 9 7 8) (start [(7, .reals [⟨1⟩]), (8, .indices [1])] [])).status = 8 := by decide

/-- V-SYNC-1. -/
theorem test_syncLocate :
    (after (.syncLocate 3 2)
      (start [(2, .symbols [1, 1, 0, 1]), (3, .symbols [0, 0, 1, 1, 0, 1, 0, 0])] [])).getR 0 = 5 ∧
    (corrIndices [0, 0, 1, 1, 0, 1, 0, 0] [1, 1, 0, 1]).map
      (corrAt [0, 0, 1, 1, 0, 1, 0, 0] [1, 1, 0, 1]) = [-1, 0, 1, -2, -2, 4, -2, 0, 1, -2, -1] := by
  decide +kernel

/-- R510's example: offsets 3, 3, 7 and one failure. -/
theorem test_modeOffset : modeOffset [3, 3, 7] = some 3 ∧ votes [3, 3, 7] 3 = 2 := by decide

/-- R510: a channel whose `locate` fails does not vote. -/
theorem test_syncMulti :
    (after (.syncMulti 7 2)
      (start [(2, .symbols [1, 1, 0, 1]), (7, .chanSyms ⟨[1, 1, 0, 1], [[]]⟩)] [])).getR 1 = 1 ∧
    (after (.syncMulti 7 2) (start [(2, .symbols []), (7, .chanSyms ⟨[1], []⟩)] [])).status = 3 := by
  decide

/-! ### The command port -/

/-- V-CTL-2: the decoder after a SETI header, as the read port gives it. -/
theorem test_port_collecting :
    readPort Config.params { State.reset with dec := .collecting 0x00000201 2 [] } 0x004 = 0x0102 := by
  decide

/-- A command presented to the port runs in the next step. -/
theorem test_withFetchWord_seti :
    step (State.reset.withFetchWord 96 0x0000001B0000000000000201) =
      exec (.seti 2 0x1B) { State.reset with pending := [] } := by with_unfolding_all rfl

/-! ### Commands over numbers, at harness H of 95_test_vectors.md, part 2, over binary64 -/

/-- The binary64 number of an integer. -/
def num (z : Int) : Number := binary64.ofInt z

/-- `BP(p1, p2)` of H as a filter code above 0; the code 0 is `LP`. -/
def bandFilter (p1 p2 : Number) : Filter := ⟨1 + p1.code * 2 ^ 64 + p2.code⟩

/-- `apply` of H: a value window for a bandpass, the FIR `[1, 1]` for a lowpass. -/
def applyFilterH (f : Filter) (xs : List Number) : List Number :=
  if f.code = 0 then
    List.zipWith binary64.add xs (num 0 :: xs)
  else
    let p1 : Number := ⟨(f.code - 1) / 2 ^ 64⟩
    let p2 : Number := ⟨(f.code - 1) % 2 ^ 64⟩
    xs.map fun v => if binary64.le p1 v && binary64.le v p2 then v else num 0

/-- Harness H. -/
def paramsH : Params where
  num := binary64
  elemsAboveFloor := 0
  rsTailPolicy := .padZero
  plan :=
    { ofdmBand := fun c =>
        let h := binary64.div c.sub.width (num 2)
        let lo := binary64.sub c.sub.centre h
        let hi := binary64.add c.sub.centre h
        ⟨binary64.sub lo (num 1), lo, hi, binary64.add hi (num 1), num 1, num 60, binary64.ofInt c.rate⟩
      demodAtt := fun _ => (num 1, num 60)
      interpLP := fun c => ⟨num 1, num 2, num 1, num 60, binary64.ofInt c.rate⟩
      envLP := fun c => ⟨binary64.add c.tones.bw (num 1), num 1, num 60, binary64.ofInt c.rate⟩
      smoothLP := fun c => ⟨num 1, num 2, num 1, num 60, binary64.ofInt c.rate⟩ }
  hopRaw := fun k _ => if k = 0 then 1 else 0
  planFSK := fun _ _ _ _ => some ⟨num (-1), num 1, binary64.ofBinary64 0x3FE0000000000000, num 4⟩
  synthRaw := fun n _ fs => List.replicate n (fs.headD (num 0))
  designBPRaw := fun q => some (bandFilter q.pass1 q.pass2)
  designLPRaw := fun _ => some ⟨0⟩
  groupDelay := fun f => if f.code = 0 then 0 else 1
  applyFilter := applyFilterH
  rsAccepts := fun n k => 1 ≤ k && k < n && n ≤ 255
  rsEncodeRaw := fun n k m => m ++ List.replicate (n - k) 0
  rsDecodeRaw := fun n k c =>
    if n - k < c.countP Option.isNone then none else some ((c.take k).map fun x => x.getD 0)

/-- The state after a command at H. -/
def afterH (i : Instr) (s : State) : State := endCommand (headerWord i) s (commandRule paramsH i s)

/-- The reset state at H with some slots and some integer registers. -/
def startH (slots : Slots) (regs : List (IReg × Bits64)) : State :=
  regs.foldl (fun s p => s.setI p.1 p.2) { State.resetWith paramsH with slots := slots }

/-- The configuration of V-MOD-2, and of V-DEM-1 with `DSPS = 8`. -/
def cfgBfsk : Cfg :=
  { Cfg.resetWith paramsH with bps := 1, srate := 48, sps := 4, expf := 2, sepi := 1, carrier := num 10, dsps := 8 }

/-- The configuration of V-MOD-7, with `DSPS = 2`. -/
def cfgBands : Cfg :=
  { Cfg.resetWith paramsH with
    bps := 1, srate := 48, sps := 2, expf := 1, sepi := 1, bwdiv := 1, fmin := num 0, fmax := num 8, dsps := 2 }

/-- The modulator V-MOD-2 builds. -/
def modBfsk : Modulator :=
  ⟨4, 48, 2, 1, .bfsk ⟨num 10, num (-1), num 1, binary64.ofBinary64 0x3FE0000000000000, num 4⟩⟩

/-- R203's example. -/
theorem test_setf : (afterH (.setf 0 0x40D3880000000000) (startH [] [])).getF 0 = num 20000 := by decide +kernel

/-- V-CTL-19. -/
theorem test_movrf :
    (afterH (.movrf 3 0) ((startH [] []).setRF 0 ⟨0x3FE0000000000000⟩)).getF 3 = ⟨0x3FE0000000000000⟩ := by
  decide +kernel

/-- V-CTL-10 and V-CTL-9. -/
theorem test_cfgWrf_cfgRd :
    (afterH (.cfgWrf .gthresh 15) ((startH [] []).setF 15 ⟨0x3F50624DD2F1A9FC⟩)).cfg.gthresh =
      ⟨0x3F50624DD2F1A9FC⟩ ∧
    (afterH (.cfgRd .gthresh) (startH [] [])).getRF 0 = ⟨0x3F1A36E2EB1C432D⟩ := by decide +kernel

/-- V-RS-8, V-RS-7. -/
theorem test_codecRs :
    slot (afterH (.codecRs 9 0 1) (startH [] [(0, 2040), (1, 1784)])) 9 = some (.codec ⟨.rs, 2040, 1784⟩) ∧
    (afterH (.codecRs 9 0 1) (startH [] [(0, 8), (1, 8)])).status = 4 := by decide +kernel

/-- V-RS-3. -/
theorem test_codecEnc_rs :
    slot (afterH (.codecEnc 2 9 1) (startH [(1, .bytes [1, 2, 3]), (9, .codec ⟨.rs, 32, 16⟩)] [])) 2 =
      some (.bytes [1, 2, 0, 0, 3, 0, 0, 0]) := by decide +kernel

/-- V-RS-4, but for the byte at the erased position 1: R22 keeps it from the codec, which H's `c[0:k]` then
has no byte for and gives as 0 (log entry 12). -/
theorem test_codecDec_rs :
    slot (afterH (.codecDec 2 9 1 8)
      (startH [(1, .bytes [1, 2, 0, 0, 3, 0, 0, 0]),
        (8, .mask [false, true, false, false, true, true, true]), (9, .codec ⟨.rs, 32, 16⟩)] [])) 2 =
          some (.bytes [1, 0, 0, 0]) ∧
    (afterH (.codecDec 2 9 1 8)
      (startH [(1, .bytes [1, 2, 0, 0, 3, 0, 0, 0]),
        (8, .mask [false, true, false, false, true, true, true]), (9, .codec ⟨.rs, 32, 16⟩)] [])).status = 1 := by
  decide +kernel

/-- V-CAR-1. -/
theorem test_carriers :
    slot (afterH (.carriers 4 0)
      ((((startH [] []).setF 0 (num 20000)).setF 1 (num 22000)).setF 2 (num 1000))) 4 =
        some (.reals [num 20500, num 21500]) := by decide +kernel

/-- V-MOD-2, V-MOD-1. -/
theorem test_modNew :
    slot (afterH (.modNew 5 .bfsk) { startH [] [] with cfg := cfgBfsk }) 5 = some (.mod modBfsk) ∧
    (afterH (.modNew 5 .bfsk) (startH [] [])).status = 5 := by decide +kernel

/-- V-MOD-7: the two channels of an OFDM modulator. -/
theorem test_modNew_ofdm :
    (afterH (.modNew 5 .ofdm) { startH [] [] with cfg := cfgBands }).getR 0 = 2 := by decide +kernel

/-- V-MOD-3. -/
theorem test_modRun :
    slot (afterH (.modRun 6 5 3 0)
      (startH [(3, .symbols [0, 1]), (5, .mod modBfsk), (6, .reals [])] [])) 6 =
        some (.reals ([9, 9, 9, 9, 0, 0, 0, 0, 11, 11, 11, 11, 0, 0, 0, 0].map num)) := by decide +kernel

/-- V-MOD-10: the draws 1 and 0. -/
theorem test_modRun_fhss :
    let tones := fun c => (⟨num c, num (-1), num 1, ⟨0x3FE0000000000000⟩, num 4⟩ : ToneSet)
    let m : Modulator := ⟨2, 48, 1, 1, .fhss ⟨num (-1), num 1, ⟨0x3FE0000000000000⟩, num 4⟩ (num 4)
      ⟨tones 2, [tones 6]⟩⟩
    modulate paramsH m 0 [] [0, 1] = [5, 5, 3, 3].map num := by decide +kernel

/-- R370: no symbols append nothing, whatever an OFDM channel's filter makes of an empty list. -/
theorem test_modRun_ofdm_empty :
    let tones : ToneSet := ⟨num 2, num (-1), num 1, ⟨0x3FE0000000000000⟩, num 4⟩
    let m : Modulator := ⟨2, 48, 1, 1, .ofdm ⟨num (-1), num 1, ⟨0x3FE0000000000000⟩, num 4⟩ (num 4)
      ⟨⟨tones, ⟨0⟩⟩, []⟩⟩
    modulate { paramsH with applyFilter := fun _ _ => [num 1] } m 0 [] [] = [] ∧
    modulate { paramsH with applyFilter := fun _ _ => [num 1] } m 0 [] [1] = [num 1] := by decide +kernel

/-- V-MOD-2. -/
theorem test_modInfo :
    (afterH (.modInfo 8 5) (startH [(5, .mod modBfsk)] [])).getR 2 = 8 ∧
    slot (afterH (.modInfo 8 5) (startH [(5, .mod modBfsk)] [])) 8 = some (.reals [num 10]) := by decide +kernel

/-- V-DEM-3 and the constants of R411. -/
theorem test_demNew :
    (afterH (.demNew 6 .bfsk) { startH [] [] with cfg := { cfgBfsk with dsps := 9 } }).status = 5 ∧
    (match slot (afterH (.demNew 6 .bfsk) { startH [] [] with cfg := cfgBfsk }) 6 with
      | some (.dem d) => (d.decim, d.gardnerSps, d.window)
      | _ => (0, 0, 0)) = (1, 16, 8) := by decide +kernel

/-- A demodulator with the constants of V-DEM-1. -/
def demBfsk : Demodulator :=
  ⟨4, 48, 8, 1, ⟨0x3F1A36E2EB1C432D⟩, 1, 16, 8,
    .bfsk ⟨⟨⟨num 10, num (-1), num 1, ⟨0x3FE0000000000000⟩, num 4⟩, num 9, num 11,
      bandFilter (num 8) (num 10), bandFilter (num 10) (num 12), 1, 1, ⟨0⟩, ⟨0⟩⟩, ⟨0⟩⟩⟩

/-- V-DEM-2: an empty input. -/
theorem test_demRun_empty :
    slot (afterH (.demRun 7 6 2) (startH [(2, .reals []), (6, .dem demBfsk)] [])) 7 =
      some (.symbols []) ∧
    (afterH (.demRun 7 6 2) (startH [(2, .reals []), (6, .dem demBfsk)] [])).getR 1 = 1 := by decide +kernel

/-- V-DEM-9, and an empty input of a BFSK instance. -/
theorem test_demSoft :
    slot (afterH (.demSoft 7 6 2) (startH [(2, .reals []), (6, .dem demBfsk)] [])) 7 =
      some (.reals []) ∧
    (after (.demSoft 8 6 2) (start [(2, .reals []),
      (6, .dem { demBfsk with
        body := (.ofdm ⟨num 0, num 0, num 0, num 0⟩ (num 4)
          ⟨⟨⟨⟨num 10, num (-1), num 1, num 0, num 4⟩, num 9, num 11, ⟨0⟩, ⟨0⟩, 0, 0, ⟨0⟩, ⟨0⟩⟩, ⟨0⟩⟩, []⟩) })]
      [])).status = 8 := by decide +kernel

/-- R445. -/
theorem test_demInfo :
    (after (.demInfo 6) (start [(6, .dem demBfsk)] [])).getR 3 = 16 ∧
    (after (.demInfo 6) (start [(6, .dem demBfsk)] [])).getRF 1 = num 11 := by decide +kernel

/-- R424, R425: the samples at `0, D, 2D`, and the larger magnitude with ties to branch 0. -/
theorem test_stages :
    stage4 2 [num 1, num 2, num 3] = [num 1, num 3] ∧
    stage5 binary64 [num 1, num 2] [num 4, num 1] = [binary64.neg (num 1), num 1] := by decide +kernel

/-- V-GAR-1. -/
theorem test_gardner :
    gardner binary64 [num 1, num 1, num 1, num (-1), num (-1)] 2 ⟨0x3F1A36E2EB1C432D⟩ = ⟨[2, 4], -1, 3⟩ := by
  decide +kernel

/-- V-GAR-8: both zeros decide 0. -/
theorem test_trDecide :
    slot (afterH (.trDecide 9 7 8)
      (startH [(7, .reals [num 0, ⟨0x8000000000000000⟩, num (-1)]), (8, .indices [0, 1, 2])] [])) 9 =
        some (.symbols [0, 0, 1]) := by decide +kernel

/-! ### Witnesses: a state and operands that meet the hypotheses of each obligation, clause by clause -/

/-- A state with the host's next operation. -/
def issued (s : State) (op : HostOp) : State := { s with pending := [op] }

/-- A BFSK parameter set. -/
def tonesW : ToneSet := ⟨⟨5⟩, ⟨1⟩, ⟨2⟩, ⟨3⟩, ⟨4⟩⟩

/-- A demodulator channel. -/
def chanW : Chan := ⟨tonesW, ⟨6⟩, ⟨7⟩, ⟨8⟩, ⟨9⟩, 1, 1, ⟨10⟩, ⟨11⟩⟩

/-- A modulator with a given body. -/
def modW (b : ModBody) : Modulator := ⟨1, 8, 1, 1, b⟩

/-- A demodulator with a given body. -/
def demW (b : DemBody) : Demodulator := ⟨4, 48, 8, 1, ⟨1⟩, 1, 16, 8, b⟩

/-- Bodies of the three kinds of modulator. -/
def modBodiesW : List ModBody :=
  [.bfsk tonesW, .ofdm ⟨⟨1⟩, ⟨2⟩, ⟨3⟩, ⟨4⟩⟩ ⟨4⟩ ⟨⟨tonesW, ⟨0⟩⟩, []⟩, .fhss ⟨⟨1⟩, ⟨2⟩, ⟨3⟩, ⟨4⟩⟩ ⟨4⟩ ⟨tonesW, [tonesW]⟩]

/-- Bodies of the three kinds of demodulator. -/
def demBodiesW : List DemBody :=
  [.bfsk ⟨chanW, ⟨0⟩⟩, .ofdm ⟨⟨1⟩, ⟨2⟩, ⟨3⟩, ⟨4⟩⟩ ⟨4⟩ ⟨⟨chanW, ⟨0⟩⟩, []⟩,
    .fhss ⟨⟨1⟩, ⟨2⟩, ⟨3⟩, ⟨4⟩⟩ ⟨4⟩ ⟨chanW, [chanW]⟩ ⟨0⟩]

theorem witness_DecodeEncode :
    (Instr.carriers 255 13).WellFormed = true ∧ (Instr.seti 15 0xFFFFFFFFFFFFFFFF).WellFormed = true := by
  decide

theorem witness_EncodeDecode : decode [0x01090243, 0x000000FF] = .ok (.codecDec 2 9 1 255) := by decide

/-- Both ends of every undefined range. -/
theorem witness_UndefinedOpcodes :
    ([0x0B, 0x0F, 0x1A, 0x1F, 0x2A, 0x2F, 0x33, 0x3F, 0x45, 0x4F, 0x54, 0x5F, 0x65, 0x67, 0x6A, 0x6F, 0x72,
        0xFFFFFFFF] : List Word).all (fun w =>
      let op := (fieldOp w).toNat
      ((0x0B ≤ op ∧ op ≤ 0x0F) ∨ (0x1A ≤ op ∧ op ≤ 0x1F) ∨ (0x2A ≤ op ∧ op ≤ 0x2F) ∨
        (0x33 ≤ op ∧ op ≤ 0x3F) ∨ (0x45 ≤ op ∧ op ≤ 0x4F) ∨ (0x54 ≤ op ∧ op ≤ 0x5F) ∨
        (0x65 ≤ op ∧ op ≤ 0x67) ∨ (0x6A ≤ op ∧ op ≤ 0x6F) ∨ 0x72 ≤ op) ∧
      (issued State.reset (.issue w)).dec = .idle ∧
      (issued State.reset (.issue w)).pending = [.issue w]) = true := by decide +kernel

theorem witness_CommandPortWords :
    (issued State.reset (.issue 0x201)).dec = .idle ∧ 1 < commandLength 0x201 ∧
    (issued { State.reset with dec := .collecting 0x201 2 [] } (.issue 0)).dec = .collecting 0x201 2 [] ∧
    commandLength 0x0B = 1 ∧ decode [0x0B] = .error .undefinedOpcode ∧
    (issued { State.reset with dec := .collecting 0x1001 1 [0] } (.issue 5)).dec = .collecting 0x1001 1 [0] ∧
    decode [0x1001, 0, 5] = .error .registerField := by decide

theorem witness_StepRunsDecodedCommand :
    (issued State.reset (.issue 0)).pending = [.issue 0] ∧ (issued State.reset (.issue 0)).dec = .idle ∧
    decode [0] = .ok .nop ∧
    (issued { State.reset with dec := .collecting 0x201 1 [0] } (.issue 0x1B)).dec =
      .collecting 0x201 1 [0] ∧
    decode (0x201 :: ([0] ++ [0x1B])) = .ok (.seti 2 0x1B) := by decide

/-- A state with an object, a failing status on record and a command half collected. -/
def busyW : State :=
  { State.reset with
    dec := .collecting 0x201 2 []
    status := 7
    sticky := 1 <<< 7
    errcmd := 0x511
    slots := [(255, .bytes [1])]
    pending := [.issue 0] }

theorem witness_ReadPortMap :
    (issued State.reset (.read 0x001)).pending = [.read 0x001] ∧ State.reset.dec = .idle ∧
    busyW.dec = .collecting 0x201 2 [] ∧ 0x005 ≤ (0x00F : BitVec 12).toNat ∧
    (0x014 : BitVec 12).toNat ≤ 0x017 ∧ (0x01F : BitVec 12).toNat ≤ 0x01F ∧
    0x04B ≤ (0x04B : BitVec 12).toNat := by decide

theorem witness_ResetValues : CfgReg.bps.isInt = true ∧ CfgReg.dsps.isInt = true := by decide

theorem witness_MachineNeverStops : State.reset.pending = [] := rfl

theorem witness_FailingStatusAtomic :
    ∃ t, exec (.bufFree 5) State.reset = .next t ∧ 3 ≤ t.status.toNat := ⟨_, rfl, by decide⟩

theorem witness_StatusRegistersRecord :
    ∃ t, Instr.bufFree 5 ≠ .clrerr ∧ Instr.bufFree 5 ≠ .reset ∧ exec (.bufFree 5) State.reset = .next t :=
  ⟨_, by decide, by decide, rfl⟩

theorem witness_InvariantKept : ∃ t, Inv Config.params busyW ∧ step busyW = .next t := by
  refine ⟨_, ⟨by decide, ?_, by decide, ?_, by decide, by decide, ⟨by decide, by decide⟩⟩, rfl⟩
  · intro h o ho
    have hs : slotGet busyW.slots h = if 255 = h then some (.bytes [1]) else none := rfl
    rw [hs] at ho
    split at ho
    · cases ho
      exact le_maxElems (by decide)
    · cases ho
  · intro k hk
    have h1 : busyW.sticky = 128#64 := by decide
    rw [h1]
    rcases hk with rfl | hk
    · rfl
    · exact Nat.testBit_lt_two_pow (Nat.lt_of_lt_of_le (by decide) (Nat.pow_le_pow_right (by decide) hk))

theorem witness_RegistersWrittenWhereNamed :
    ∃ t, Instr.bufNew 1 .bytes ≠ .reset ∧ exec (.bufNew 1 .bytes) State.reset = .next t ∧
      writesI (.bufNew 1 .bytes) ≠ some 0 ∧ writesF (.bufNew 1 .bytes) ≠ some 0 ∧
      3 ∉ writesR (.bufNew 1 .bytes) ∧ 3 ∉ writesRF (.bufNew 1 .bytes) ∧
      writesCfg (.bufNew 1 .bytes) ≠ some .bps :=
  ⟨_, by decide, rfl, by decide, by decide, by decide, by decide, by decide⟩

theorem witness_SlotsChangedWhereNamed :
    ∃ t, Instr.bufConcat 1 2 ≠ .reset ∧ exec (.bufConcat 1 2) State.reset = .next t ∧
      3 ∉ namedHandles State.reset (.bufConcat 1 2) := ⟨_, by decide, rfl, by decide⟩

/-- The three failures of a handle operand, at the first and at the second operand. -/
theorem witness_HandleOperandsChecked :
    (Instr.bufNew 0 .bytes).WellFormed = true ∧
    firstOperandFailure State.reset (.bufNew 0 .bytes) = some .nullBuffer ∧
    firstOperandFailure (start [(1, .bytes [])] []) (.bufNew 1 .bytes) = some .handleBusy ∧
    firstOperandFailure (start [(1, .bytes [])] []) (.pkFlush 2 1) = some .wrongKind := by decide

theorem witness_SourcesChecked :
    let s := start [(2, .reals []), (3, .stream ⟨2, true, 0⟩)] []
    firstOperandFailure s (.stRemain 3) = none ∧ indirectSource s (.stRemain 3) = some 2 ∧
    existingFailure s 2 sourceKinds = some .wrongKind := by decide

theorem witness_ConfigCommands :
    CfgReg.dsps.isInt = true ∧ CfgReg.gthresh.isInt = false ∧ State.reset.cfg.get .dsps = .int 0 ∧
    State.reset.cfg.get .carrier = .num (Config.params.num.ofInt 0) := ⟨rfl, rfl, rfl, rfl⟩

theorem witness_ClearAndReset :
    (issued State.reset .resetLine).pending = [.resetLine] := rfl

/-- An object of each of the twelve kinds, the instances of each of their three kinds. -/
def objectsW : List Obj :=
  [.bytes [1], .reals [⟨1⟩], .symbols [1], .indices [1], .mask [true], .chanSyms ⟨[1], [[0]]⟩, .packer [true],
    .stream ⟨2, true, 3⟩, .tracker ⟨2, 8, 3⟩, .codec ⟨.rs, 16, 8⟩] ++
  modBodiesW.map (fun b => .mod (modW b)) ++ demBodiesW.map fun d => .dem (demW d)

theorem witness_ObjectCommands :
    Vacant State.reset 255 ∧ (objectsW.map Obj.kind).dedup.length = 12 ∧
    ∀ o ∈ objectsW, slot (start [(1, o)] []) 1 = some o :=
  ⟨⟨by decide, rfl⟩, by decide, by decide⟩

theorem witness_PushCommands :
    (Holds (start [(1, .bytes [7])] [(2, 255)]) 1 (.bytes [7]) ∧ 1 + 1 ≤ Config.params.maxElems ∧
      ((start [(1, .bytes [7])] [(2, 255)]).getI 2).toNat ≤ 255) ∧
    (Holds (start [(1, .symbols [])] [(2, 255)]) 1 (.symbols []) ∧ 0 + 1 ≤ Config.params.maxElems ∧
      ((start [(1, .symbols [])] [(2, 255)]).getI 2).toNat ≤ 255) ∧
    Holds (start [(1, .indices [])] []) 1 (.indices []) ∧
    (Holds (start [(1, .mask [])] [(2, 1)]) 1 (.mask []) ∧
      ((start [(1, .mask [])] [(2, 1)]).getI 2).toNat ≤ 1) ∧
    (Holds (start [(1, .bytes [])] [(2, 256)]) 1 (.bytes []) ∧
      255 < ((start [(1, .bytes [])] [(2, 256)]).getI 2).toNat) ∧
    (Holds (start [(1, .mask [])] [(2, 2)]) 1 (.mask []) ∧
      1 < ((start [(1, .mask [])] [(2, 2)]).getI 2).toNat) ∧
    Holds (start [(1, .reals [])] []) 1 (.reals []) ∧
    (let xs := List.replicate Config.params.maxElems (⟨0⟩ : Number)
     Holds (start [(1, .reals xs)] []) 1 (.reals xs) ∧ Config.params.maxElems < xs.length + 1) ∧
    (let xs := List.replicate Config.params.maxElems (0 : Byte)
     let ks := List.replicate Config.params.maxElems (0 : Bits64)
     let fs := List.replicate Config.params.maxElems true
     Holds (start [(1, .bytes xs)] []) 1 (.bytes xs) ∧ Config.params.maxElems < xs.length + 1 ∧
     Holds (start [(1, .indices ks)] []) 1 (.indices ks) ∧ Config.params.maxElems < ks.length + 1 ∧
     Holds (start [(1, .mask fs)] []) 1 (.mask fs) ∧ Config.params.maxElems < fs.length + 1) := by
  refine ⟨⟨⟨by decide, rfl⟩, le_maxElems (by decide), by decide⟩,
    ⟨⟨by decide, rfl⟩, le_maxElems (by decide), by decide⟩, ⟨by decide, rfl⟩,
    ⟨⟨by decide, rfl⟩, by decide⟩, ⟨⟨by decide, rfl⟩, by decide⟩, ⟨⟨by decide, rfl⟩, by decide⟩,
    ⟨by decide, rfl⟩, ⟨⟨by decide, rfl⟩, ?_⟩, ⟨by decide, rfl⟩, ?_, ⟨by decide, rfl⟩, ?_,
    ⟨by decide, rfl⟩, ?_⟩ <;>
  simp

theorem witness_GetCommands :
    (Holds (start [(1, .bytes [7, 8])] [(2, 1)]) 1 (.bytes [7, 8]) ∧
      ((start [(1, .bytes [7, 8])] [(2, 1)]).getI 2).toNat < 2) ∧
    (Holds (start [(1, .indices [7])] []) 1 (.indices [7]) ∧
      ((start [(1, .indices [7])] []).getI 2).toNat < 1) ∧
    Holds (start [(1, .mask [true])] []) 1 (.mask [true]) ∧
    Holds (start [(1, .reals [⟨7⟩])] []) 1 (.reals [⟨7⟩]) ∧
    (Holds (start [(1, .symbols [7])] [(2, 1)]) 1 (.symbols [7]) ∧ Kind.symbols ∈ intKinds ∧
      1 ≤ ((start [(1, .symbols [7])] [(2, 1)]).getI 2).toNat) ∧
    (Holds (start [(1, .reals [])] []) 1 (.reals []) ∧ 0 ≤ ((start [(1, .reals [])] []).getI 2).toNat) :=
  ⟨⟨⟨by decide, rfl⟩, by decide⟩, ⟨⟨by decide, rfl⟩, by decide⟩, ⟨by decide, rfl⟩, ⟨by decide, rfl⟩,
    ⟨⟨by decide, rfl⟩, by decide, by decide⟩, ⟨⟨by decide, rfl⟩, by decide⟩⟩

theorem holds_both (x y : Obj) :
    Holds (start [(1, x), (2, y)] []) 1 x ∧ Holds (start [(1, x), (2, y)] []) 2 y :=
  ⟨⟨by decide, rfl⟩, by decide, rfl⟩

/-- A full list of each kind and one more element of it. -/
theorem witness_ListCommands_full :
    let n := Config.params.maxElems
    let both := fun (x y : Obj) => Holds (start [(1, x), (2, y)] []) 1 x ∧ Holds (start [(1, x), (2, y)] []) 2 y
    both (.bytes (.replicate n 0)) (.bytes [1]) ∧ both (.reals (.replicate n ⟨0⟩)) (.reals [⟨1⟩]) ∧
    both (.symbols (.replicate n 0)) (.symbols [1]) ∧ both (.indices (.replicate n 0)) (.indices [1]) ∧
    both (.mask (.replicate n true)) (.mask [true]) ∧ n < (List.replicate n (0 : Byte) ++ [1]).length ∧
    n < (List.replicate n (⟨0⟩ : Number) ++ ([⟨1⟩] : List Number)).length ∧
    n < (List.replicate n (0 : Bits64) ++ [1]).length ∧ n < (List.replicate n true ++ [true]).length := by
  refine ⟨holds_both .., holds_both .., holds_both .., holds_both .., holds_both .., ?_, ?_, ?_, ?_⟩ <;> simp

/-- A list of each kind, its tail from index 0 within the capacity, a negative index and both ends of the
channels. -/
theorem witness_ListCommands :
    let s := start [(2, .mask [true]), (3, .chanSyms ⟨[1], []⟩), (4, .bytes [1]), (5, .reals [⟨1⟩]),
      (6, .symbols [1]), (7, .indices [1])] [(1, -1), (2, 1)]
    Vacant s 1 ∧ Holds s 2 (.mask [true]) ∧ 0 ≤ (s.getI 0).toInt ∧ (s.getI 1).toInt < 0 ∧
    Kind.mask ∈ listKinds ∧ ([true].drop (s.getI 0).toInt.toNat).length ≤ Config.params.maxElems ∧
    Holds s 3 (.chanSyms ⟨[1], []⟩) ∧ (s.getI 0).toNat < 1 ∧ 1 ≤ (s.getI 2).toNat ∧
    Holds s 4 (.bytes [1]) ∧ Holds s 5 (.reals [⟨1⟩]) ∧ Holds s 6 (.symbols [1]) ∧ Holds s 7 (.indices [1]) ∧
    1 + 1 ≤ Config.params.maxElems :=
  ⟨⟨by decide, rfl⟩, ⟨by decide, rfl⟩, by decide, by decide, by decide, le_maxElems (by decide),
    ⟨by decide, rfl⟩, by decide, by decide, ⟨by decide, rfl⟩, ⟨by decide, rfl⟩, ⟨by decide, rfl⟩,
    ⟨by decide, rfl⟩, le_maxElems (by decide)⟩

/-- Widths 1, 64, 65 and 0, a value one too large for its width, and a partial last byte. -/
theorem witness_PackerCommands :
    let s := start [(2, .packer [true]), (3, .bytes [1])] [(1, 1), (2, 64), (3, 65), (4, 2)]
    Vacant s 1 ∧ Holds s 2 (.packer [true]) ∧ Holds s 3 (.bytes [1]) ∧
    (0 < (s.getI 1).toInt ∧ (s.getI 1).toNat < 2 ^ (s.getI 1).toInt.toNat) ∧
    ((s.getI 2).toInt ≤ 64 ∧ (s.getI 2).toNat < 2 ^ (s.getI 2).toInt.toNat) ∧
    64 < (s.getI 3).toInt ∧ (s.getI 0).toInt ≤ 0 ∧ 2 ^ (s.getI 1).toInt.toNat ≤ (s.getI 4).toNat ∧
    1 + 65 ≤ 8 * Config.params.maxElems ∧ (packBytes [true, false, true])[0]? = some 0xA0 ∧ 0 < 3 :=
  ⟨⟨by decide, rfl⟩, ⟨by decide, rfl⟩, ⟨by decide, rfl⟩, by decide, by decide, by decide, by decide,
    by decide, Nat.le_trans (by decide) (Nat.mul_le_mul_left 8 (le_maxElems (Nat.le_refl _))), by decide,
    by decide⟩

theorem witness_StreamInspection :
    let s := start [(2, .bytes [1]), (3, .packer [true]), (4, .stream ⟨2, false, 8⟩), (5, .stream ⟨3, true, 9⟩),
      (6, .stream ⟨7, true, 0⟩), (7, .packer [])] []
    Vacant s 1 ∧ SourceBits s 2 (bytesToBits [1]) ∧ SourceBits s 3 [true] ∧ SourceBits s 7 [] ∧
    Holds s 4 (.stream ⟨2, false, 8⟩) ∧ Holds s 5 (.stream ⟨3, true, 9⟩) ∧
    Holds s 6 (.stream ⟨7, true, 0⟩) ∧ 1 ≤ Config.params.maxElems :=
  ⟨⟨by decide, rfl⟩, .inl ⟨_, ⟨by decide, rfl⟩, rfl⟩, .inr ⟨by decide, rfl⟩, .inr ⟨by decide, rfl⟩,
    ⟨by decide, rfl⟩, ⟨by decide, rfl⟩, ⟨by decide, rfl⟩, le_maxElems (by decide)⟩

theorem witness_StreamReadBits :
    let s := start [(2, .packer [true]), (4, .stream ⟨2, false, 1⟩), (5, .stream ⟨2, true, 9⟩),
      (6, .stream ⟨7, true, 0⟩), (7, .packer [])] [(1, 1)]
    Vacant s 1 ∧ SourceBits s 2 [true] ∧ SourceBits s 7 [] ∧ Holds s 4 (.stream ⟨2, false, 1⟩) ∧
    Holds s 5 (.stream ⟨2, true, 9⟩) ∧ Holds s 6 (.stream ⟨7, true, 0⟩) ∧ 0 < (s.getI 1).toInt ∧
    (s.getI 0).toInt ≤ 0 ∧ 1 ≤ Config.params.maxElems :=
  ⟨⟨by decide, rfl⟩, .inr ⟨by decide, rfl⟩, .inr ⟨by decide, rfl⟩, ⟨by decide, rfl⟩, ⟨by decide, rfl⟩,
    ⟨by decide, rfl⟩, by decide, by decide, le_maxElems (by decide)⟩

theorem witness_StreamReadIntegers :
    let s := start [(2, .packer [true]), (4, .stream ⟨2, false, 0⟩), (5, .stream ⟨2, true, 9⟩),
      (6, .stream ⟨7, true, 0⟩), (7, .packer [])] [(1, 1), (2, 32), (3, 33)]
    SourceBits s 2 [true] ∧ SourceBits s 7 [] ∧ Holds s 4 (.stream ⟨2, false, 0⟩) ∧
    Holds s 5 (.stream ⟨2, true, 9⟩) ∧ Holds s 6 (.stream ⟨7, true, 0⟩) ∧ 1 ≤ (s.getI 1).toInt ∧
    (s.getI 2).toInt ≤ 32 ∧ (s.getI 0).toInt < 1 ∧ 32 < (s.getI 3).toInt :=
  ⟨.inr ⟨by decide, rfl⟩, .inr ⟨by decide, rfl⟩, ⟨by decide, rfl⟩, ⟨by decide, rfl⟩, ⟨by decide, rfl⟩,
    by decide, by decide, by decide, by decide⟩

theorem witness_BitioRoundTrip_CircularPeriodicity :
    [3, 0, 5].sum = 8 * ([0xA5] : List Byte).length ∧ [true] ≠ [] := by decide

theorem witness_TrackerCommands :
    let s := start [(2, .bytes [0xB4]), (3, .tracker ⟨2, 8, 0⟩), (4, .tracker ⟨2, 8, 1⟩)]
      [(1, 1), (2, 8), (3, 9)]
    Vacant s 1 ∧ SourceBits s 2 (bytesToBits [0xB4]) ∧ 1 ≤ (s.getI 1).toInt ∧ (s.getI 2).toInt ≤ 8 ∧
    Holds s 3 (.tracker ⟨2, 8, 0⟩) ∧ 0 + 8 ≤ (bytesToBits [0xB4]).length ∧
    Holds s 4 (.tracker ⟨2, 8, 1⟩) ∧ (bytesToBits [0xB4]).length < 1 + 8 ∧
    (s.getI 0).toInt < 1 ∧ 8 < (s.getI 3).toInt ∧ 8 / 1 ≤ Config.params.maxElems :=
  ⟨⟨by decide, rfl⟩, .inl ⟨_, ⟨by decide, rfl⟩, rfl⟩, by decide, by decide, ⟨by decide, rfl⟩, by decide,
    ⟨by decide, rfl⟩, by decide, by decide, by decide, le_maxElems (by decide)⟩

theorem witness_CodecObjects :
    let s := start [(2, .codec ⟨.rs, 16, 8⟩)] [(1, 8), (2, 9)]
    Vacant s 1 ∧ 0 < (s.getI 1).toInt ∧ (s.getI 1).toInt % 8 = 0 ∧ (s.getI 0).toInt ≤ 0 ∧
    (s.getI 2).toInt % 8 ≠ 0 ∧ Holds s 2 (.codec ⟨.rs, 16, 8⟩) :=
  ⟨⟨by decide, rfl⟩, by decide, by decide, by decide, by decide, ⟨by decide, rfl⟩⟩

/-- What a command's output needs to pass `MAX_ELEMS`: a packer with no room for one bit more, a source of
that many bits, bytes, code and channels. -/
theorem witness_capacity :
    let n := Config.params.maxElems
    let bits := List.replicate (8 * n) true
    let bytes := List.replicate (2 * n + 1) (0 : Byte)
    let chs : Bank (List Byte) := ⟨bytes, []⟩
    let s := start [(2, .packer bits), (3, .bytes bytes), (4, .codec ⟨.manchester, 2, 1⟩),
      (5, .codec ⟨.rs, 32, 16⟩), (6, .chanSyms chs)] [(2, 1)]
    Vacant s 1 ∧ Holds s 2 (.packer bits) ∧ Holds s 3 (.bytes bytes) ∧ SourceBits s 2 bits ∧
    Holds s 4 (.codec ⟨.manchester, 2, 1⟩) ∧ Holds s 5 (.codec ⟨.rs, 32, 16⟩) ∧ Holds s 6 (.chanSyms chs) ∧
    OptionalMask s 0 none ∧ (s.getI 2).toInt = 1 ∧ (s.getI 0).toNat < 2 ^ (s.getI 2).toInt.toNat ∧
    (s.getI 0).toInt = 0 ∧
    8 * n < bits.length + 1 ∧ 8 * n < bits.length + 8 * bytes.length ∧ n < bits.length / 1 ∧
    n < 2 * bytes.length ∧ n < 4 * ((bytes.length + 2 - 1) / 2) ∧ n < (bytes.length + 1) / 2 ∧
    (∀ xs ∈ chs.toList, bytes.length ≤ xs.length) ∧ (∃ xs ∈ chs.toList, xs.length = bytes.length) ∧
    n < chs.toList.length * (bytes.length - 0) := by
  intro n bits bytes chs s
  have hn : 1 ≤ n := le_maxElems (by decide)
  refine ⟨⟨by decide, rfl⟩, ⟨by decide, rfl⟩, ⟨by decide, rfl⟩, .inr ⟨by decide, rfl⟩, ⟨by decide, rfl⟩,
    ⟨by decide, rfl⟩, ⟨by decide, rfl⟩, .inl ⟨rfl, rfl⟩, rfl, by decide, rfl, ?_, ?_, ?_, ?_, ?_, ?_,
    fun xs h => Nat.le_of_eq (congrArg _ (List.mem_singleton.1 h).symm),
    ⟨bytes, List.mem_singleton.2 rfl, Eq.refl _⟩, ?_⟩ <;>
    simp only [bits, bytes, chs, List.length_replicate, Bank.toList, List.length_cons, List.length_nil, Nat.div_one] <;>
    omega

/-- Three message bytes in blocks of two, so that the last block, block 1, is padded. -/
theorem witness_Encoding :
    let s := start [(2, .codec ⟨.rs, 32, 16⟩), (3, .codec ⟨.manchester, 2, 1⟩), (4, .bytes [1, 2, 3])] []
    Vacant s 1 ∧ Holds s 2 (.codec ⟨.rs, 32, 16⟩) ∧ Holds s 3 (.codec ⟨.manchester, 2, 1⟩) ∧
    Holds s 4 (.bytes [1, 2, 3]) ∧ 4 * ((3 + 2 - 1) / 2) ≤ Config.params.maxElems ∧ 1 < (3 + 2 - 1) / 2 :=
  ⟨⟨by decide, rfl⟩, ⟨by decide, rfl⟩, ⟨by decide, rfl⟩, ⟨by decide, rfl⟩, le_maxElems (by decide), by decide⟩

/-- A mask and none; and a last half byte, whose first pair, at position 0, is unlike. -/
theorem witness_ManchesterDecoding :
    let s := start [(2, .codec ⟨.manchester, 2, 1⟩), (3, .bytes [0xFF]), (4, .mask [])] []
    Vacant s 1 ∧ Holds s 2 (.codec ⟨.manchester, 2, 1⟩) ∧ Holds s 3 (.bytes [0xFF]) ∧
    OptionalMask s 0 none ∧ OptionalMask s 4 (some []) ∧ (1 + 1) / 2 ≤ Config.params.maxElems ∧
    manDec [0x40] = ([0x70], [1, 2, 3]) ∧ 7 < 8 * ([0x70] : List Byte).length :=
  ⟨⟨by decide, rfl⟩, ⟨by decide, rfl⟩, ⟨by decide, rfl⟩, .inl ⟨rfl, rfl⟩,
    .inr ⟨_, rfl, by decide, rfl⟩, le_maxElems (by decide), by decide, by decide⟩

/-- A whole block, a short one, and two blocks that differ at the erased position only, which H decodes. -/
theorem witness_ReedSolomonDecoding :
    let s := start [(2, .codec ⟨.rs, 32, 16⟩), (3, .bytes [1, 2, 3, 4]), (4, .mask [true]), (5, .bytes [1])] []
    Vacant s 1 ∧ Holds s 2 (.codec ⟨.rs, 32, 16⟩) ∧ Holds s 3 (.bytes [1, 2, 3, 4]) ∧
    4 % 4 = 0 ∧ OptionalMask s 0 none ∧ OptionalMask s 4 (some [true]) ∧ Holds s 5 (.bytes [1]) ∧ 1 % 4 ≠ 0 ∧
    2 * (4 / 4) ≤ Config.params.maxElems ∧ 2 * (1 / 4 + 1) ≤ Config.params.maxElems ∧
    (([1, 2, 0, 0] : List Byte).length = ([1, 9, 0, 0] : List Byte).length ∧
      ∀ p, p ∉ [1] → ([1, 2, 0, 0] : List Byte)[p]? = ([1, 9, 0, 0] : List Byte)[p]?) ∧
    rsDecode paramsH 4 2 [1, 2, 0, 0] [1] = some [1, 0] :=
  ⟨⟨by decide, rfl⟩, ⟨by decide, rfl⟩, ⟨by decide, rfl⟩, by decide, .inl ⟨rfl, rfl⟩,
    .inr ⟨_, rfl, by decide, rfl⟩, ⟨by decide, rfl⟩, by decide, le_maxElems (by decide),
    le_maxElems (by decide), ⟨rfl, fun p hp => by
      match p with
      | 0 => rfl
      | 1 => exact absurd (List.mem_singleton.2 rfl) hp
      | _ + 2 => rfl⟩, by decide⟩

theorem witness_ManchesterLaws :
    4 < 4 * ([0x99, 0x06] : List Byte).length ∧
    (bytesToBits [0x99, 0x06])[2 * 4]? = (bytesToBits [0x99, 0x06])[2 * 4 + 1]? := by decide

theorem witness_CarriersCommand : (13 : FReg).val ≤ 13 ∧ Vacant State.reset 4 :=
  ⟨by decide, by decide, rfl⟩

/-- V-CAR-1: two centres, so that every clause has its case; and a format in which every centre fits. -/
theorem witness_TilingLaws :
    tile paramsH (num 20000) (num 22000) (num 1000) = .ok [num 20500, num 21500] ∧
    (let fits := fun j => binary64.le (binary64.add ((fun c => binary64.add c (num 1000))^[j]
      (binary64.add (num 20000) (binary64.div (num 1000) (num 2)))) (binary64.div (num 1000) (num 2))) (num 22000)
     (∀ j < 2, fits j = true) ∧ fits 2 = false) ∧
    (let P := { paramsH with num := { binary64 with le := fun _ _ => true } }
     ∀ j, j ≤ P.maxElems → P.num.le (num j) (num 0) = true) :=
  ⟨by decide +kernel, by decide +kernel, fun _ _ => rfl⟩

theorem witness_ModNewBfsk : Vacant State.reset 5 := ⟨by decide, rfl⟩

/-- A vacant slot, and legal configurations from which a planner that refuses leaves nothing to build. -/
theorem witness_InstanceCreation :
    let P := { paramsH with planFSK := fun _ _ _ _ => none }
    Vacant State.reset 5 ∧
    ([(cfgBfsk, ModKind.bfsk), (cfgBands, .ofdm), (cfgBands, .fhss)].all fun c =>
      modConfigLegal P.num c.1 c.2 && demConfigLegal P.num c.1 c.2 &&
      (match buildMod P c.1 c.2 with | .error .constructionError => true | _ => false) &&
      match buildDem P c.1 c.2 with | .error .constructionError => true | _ => false) = true :=
  ⟨⟨by decide, rfl⟩, by decide +kernel⟩

/-- V-MOD-7, and the same configuration for FHSS. -/
theorem witness_OfdmModulatorFields :
    (buildMod paramsH cfgBands .ofdm).toBool = true ∧ (buildMod paramsH cfgBands .fhss).toBool = true := by
  decide +kernel

/-- V-DEM-1, and the two kinds over bands, with the constants of R411. -/
theorem witness_BfskDemodulatorFields :
    [buildDem paramsH cfgBfsk .bfsk, buildDem paramsH cfgBands .ofdm, buildDem paramsH cfgBands .fhss].map
      (fun r => match r with | .ok d => (d.decim, d.gardnerSps, d.channels) | .error _ => (0, 0, 0)) =
        [(1, 16, 1), (2, 4, 2), (2, 4, 2)] := by decide +kernel

/-- An empty payload that fits, an output that one more symbol overfills, and a symbol 2. -/
theorem witness_ModRunCommand :
    let m := modW (.bfsk tonesW)
    let full := List.replicate Config.params.maxElems (⟨0⟩ : Number)
    let s := start [(1, .reals full), (2, .mod m), (3, .symbols []), (4, .symbols [1]), (5, .symbols [2])] []
    Holds s 1 (.reals full) ∧ Holds s 2 (.mod m) ∧ Holds s 3 (.symbols []) ∧ OptionalSymbols s 0 [] ∧
    full.length + (modulate Config.params m s.hopDraws [] []).length ≤ Config.params.maxElems ∧
    Holds s 4 (.symbols [1]) ∧ OptionalSymbols s 4 [1] ∧
    Config.params.maxElems < full.length + (modulate Config.params m s.hopDraws [] [1]).length ∧
    Holds s 5 (.symbols [2]) ∧ 1 < (2 : Byte).toNat := by
  refine ⟨⟨by decide, rfl⟩, ⟨by decide, rfl⟩, ⟨by decide, rfl⟩, .inl ⟨rfl, rfl⟩, ?_, ⟨by decide, rfl⟩,
    .inr ⟨by decide, rfl⟩, ?_, ⟨by decide, rfl⟩, by decide⟩
  · simp [modulate, modW, waves]
  · have h : ∀ xs, (synth Config.params 1 8 xs).length = 1 := by
      intro xs
      simp only [synth, fitTo, List.length_append, List.length_take, List.length_replicate]
      omega
    simp [modulate, modW, waves, wave, h]

/-- A modulator of each kind, a first symbol, and an OFDM modulation with a sample. -/
theorem witness_ModulationLength :
    (modBodiesW.all fun b => decide ((modW b).body = b)) = true ∧ 0 < ([] ++ [1] : List Byte).length ∧
    0 < (modulate paramsH (modW (.ofdm ⟨⟨1⟩, ⟨2⟩, ⟨3⟩, ⟨4⟩⟩ ⟨4⟩ ⟨⟨tonesW, ⟨0⟩⟩, []⟩)) 0 [] [1]).length := by
  decide +kernel

theorem witness_OfdmRoundRobin : 0 < 1 := by decide

theorem witness_AssembleUndoesSplit :
    let chs : Bank (List Byte) := ⟨[0, 2], [[1, 3]]⟩
    chs.toList = (List.range chs.count).map (fun ch => strided [0, 1, 2, 3] ch chs.count) ∧
    chs.count ∣ ([0, 1, 2, 3] : List Byte).length := by decide

/-- One modulator and one demodulator of each kind, with and without a destination. -/
theorem witness_InstanceInfo :
    ∀ b ∈ modBodiesW, ∀ d ∈ demBodiesW,
      let s := start [(2, .mod (modW b)), (3, .dem (demW d))] []
      slot s 2 = some (.mod (modW b)) ∧ slot s 3 = some (.dem (demW d)) ∧ slot s 1 = none := by decide

/-- Index 1 of every list the clauses look into. -/
theorem witness_StageLengths :
    let xs := [num 1, num (-2), num 3]
    0 < 2 ∧ 1 < (stage4 2 xs).length ∧ 1 < xs.length ∧ xs[1]? = some (num (-2)) ∧
    1 < (Machine.norm binary64 xs).length := by decide +kernel

/-- One demodulator of each kind. -/
theorem witness_DemRunCommand_DemSoftCommand :
    ∀ d ∈ demBodiesW,
      let s := start [(2, .dem (demW d)), (3, .reals [])] []
      slot s 1 = none ∧ slot s 2 = some (.dem (demW d)) ∧ slot s 3 = some (.reals []) := by decide

theorem witness_DemAssembleCommand :
    let chs : Bank (List Byte) := ⟨[1, 0, 1], [[0, 0]]⟩
    let s := start [(2, .chanSyms chs)] [(1, -1)]
    Vacant s 1 ∧ Holds s 2 (.chanSyms chs) ∧ (∀ xs ∈ chs.toList, 2 ≤ xs.length) ∧
    (∃ xs ∈ chs.toList, xs.length = 2) ∧ 0 ≤ (s.getI 0).toInt ∧ (s.getI 1).toInt < 0 ∧
    2 * (2 - 0) ≤ Config.params.maxElems :=
  ⟨⟨by decide, rfl⟩, ⟨by decide, rfl⟩, by decide, by decide, by decide, by decide, le_maxElems (by decide)⟩

theorem witness_TimingCommands :
    let s := start [(2, .reals [⟨1⟩]), (3, .indices [0]), (4, .indices [1]), (5, .indices [-1])] [(1, 2), (2, 1)]
    Vacant s 1 ∧ Holds s 2 (.reals [⟨1⟩]) ∧ 1 ≤ Config.params.maxElems ∧ 2 ≤ (s.getI 1).toInt ∧
    (s.getI 2).toInt < 2 ∧ Holds s 3 (.indices [0]) ∧
    (∀ k ∈ ([0] : List Bits64), 0 ≤ k.toInt ∧ k.toInt < ([⟨1⟩] : List Number).length) ∧
    Holds s 4 (.indices [1]) ∧
    (∃ k ∈ ([1] : List Bits64), k.toInt < 0 ∨ (([⟨1⟩] : List Number).length : Int) ≤ k.toInt) ∧
    Holds s 5 (.indices [-1]) ∧
    (∃ k ∈ ([-1] : List Bits64), k.toInt < 0 ∨ (([⟨1⟩] : List Number).length : Int) ≤ k.toInt) :=
  ⟨⟨by decide, rfl⟩, ⟨by decide, rfl⟩, le_maxElems (by decide), by decide, by decide, ⟨by decide, rfl⟩,
    fun k hk => by rw [List.mem_singleton.1 hk]; decide, ⟨by decide, rfl⟩, ⟨1, by decide, by decide⟩,
    ⟨by decide, rfl⟩, ⟨-1, by decide, by decide⟩⟩

/-- `p = 2`, the least the rules admit, and a list with three points. -/
theorem witness_GardnerBounds_GardnerRecurrence :
    2 ≤ 2 ∧ 2 < (gardner binary64 ((List.replicate 7 1).map num) 2 (num 1)).idx.length := by
  decide +kernel

/-- On a constant list no pass nudges. -/
theorem witness_GardnerConvergence :
    (∀ n < 4, 1 ≤ n → n * 2 < 7 →
      gardnerNudge binary64 ((List.replicate 7 1).map num) 2 (num 1) (n * 2 : Nat) 0 = 0) ∧
    0 + 1 < (gardner binary64 ((List.replicate 7 1).map num) 2 (num 1)).idx.length := by
  decide +kernel

/-- A located sentinel, an empty list, and a peak at the received length. -/
theorem witness_SyncLocateCommand :
    let s := start [(1, .symbols [0, 1]), (2, .symbols [1]), (3, .symbols []), (4, .symbols [1, 0])] []
    Holds s 1 (.symbols [0, 1]) ∧ Holds s 2 (.symbols [1]) ∧ Holds s 3 (.symbols []) ∧
    Holds s 4 (.symbols [1, 0]) ∧
    (1 < ([0, 1] : List Byte).length ∧
      (∀ m < 2 + 1 - 1, corrAt [0, 1] [1] m ≤ corrAt [0, 1] [1] 1) ∧
      (∀ m < 1, corrAt [0, 1] [1] m < corrAt [0, 1] [1] 1)) ∧
    (∀ pos < 1, ∃ m, m < 1 + 2 - 1 ∧ corrAt [1] [1, 0] pos < corrAt [1] [1, 0] m) :=
  ⟨⟨by decide, rfl⟩, ⟨by decide, rfl⟩, ⟨by decide, rfl⟩, ⟨by decide, rfl⟩, by decide,
    fun pos h => ⟨1, by decide, by interval_cases pos; decide⟩⟩

theorem witness_CorrelationBounds : 0 < ([1] : List Byte).length + ([1] : List Byte).length - 1 := by decide

theorem witness_SentinelLocated :
    ([1, 1] : List Byte) ≠ [] ∧
    ∀ k < ([1] : List Byte).length,
      (((([1] : List Byte) ++ [1, 0] ++ [0]).drop k).take 2).map bip ≠ ([1, 0] : List Byte).map bip := by
  decide

/-- Two channels that vote 1 and 0, one that vote 1 again, and a channel that fails. -/
theorem witness_SyncMultiCommand :
    let chs : Bank (List Byte) := ⟨[0, 1], [[1, 0], [0, 1], []]⟩
    let s := start [(1, .chanSyms chs), (2, .symbols [1]), (3, .symbols [])] []
    Holds s 1 (.chanSyms chs) ∧ Holds s 2 (.symbols [1]) ∧
    (let ok := chs.toList.filterMap fun r => locate r [1]
     1 ∈ ok ∧ ∀ v ∈ ok, ok.count v < ok.count 1 ∨ (ok.count v = ok.count 1 ∧ 1 ≤ v)) ∧
    Holds s 3 (.symbols []) ∧ chs.toList.filterMap (fun r => locate r []) = [] :=
  ⟨⟨by decide, rfl⟩, ⟨by decide, rfl⟩, by decide, ⟨by decide, rfl⟩, by decide⟩

end Sys2Proof.Tests
end

section
/-! PROOFS. What a sequence of checks answers, how long the lists are that the commands make, and what a
construction from the configuration gives: facts about the model's functions that do not speak of a whole
state. -/

namespace Sys2Proof.Machine

/-! ### Answers of a rule (R31) -/

@[simp] theorem ok_bind {α β : Type} (v : α) (f : α → Except Failure β) : (.ok v >>= f) = f v := rfl

@[simp] theorem error_bind {α β : Type} (e : Failure) (f : α → Except Failure β) :
    ((.error e : Except Failure α) >>= f) = .error e := rfl

/-- Where `x` answers and raises nothing, its answer has the property `Q`. -/
def Yields {α : Type} (Q : α → Prop) (x : Except Failure α) : Prop := ∀ v, x = .ok v → Q v

namespace Yields

variable {α β : Type} {Q : β → Prop}

theorem ok {v : β} (h : Q v) : Yields Q (.ok v) := by
  intro w e
  cases e
  exact h

theorem pure {v : β} (h : Q v) : Yields Q (pure v) := ok h

theorem error {e : Failure} : Yields Q (.error e) := nofun

/-- A step followed by others: the others may use what the step answered. -/
theorem bind {x : Except Failure α} {f : α → Except Failure β} (h : ∀ v, x = .ok v → Yields Q (f v)) :
    Yields Q (x >>= f) := by
  cases x with
  | error e => exact error
  | ok v => exact h v rfl

theorem ite {c : Prop} [Decidable c] {x y : Except Failure β} (hx : c → Yields Q x) (hy : ¬c → Yields Q y) :
    Yields Q (if c then x else y) := by
  split
  case isTrue h => exact hx h
  case isFalse h => exact hy h

end Yields

/-- A port's answer is passed on, and only its `none` raises. -/
theorem built_eq_ok {α : Type} {o : Option α} {v : α} : built o = .ok v ↔ o = some v := by
  cases o <;> simp [built]

/-! ### Channels -/

theorem Bank.count_eq_length {α : Type} (b : Bank α) : b.count = b.toList.length := rfl

@[simp] theorem Bank.count_map {α β : Type} (f : α → β) (b : Bank α) : (b.map f).count = b.count := by
  simp [Bank.map, Bank.count]

theorem Bank.toList_of_ofList? {α : Type} {xs : List α} {b : Bank α} (h : Bank.ofList? xs = some b) :
    b.toList = xs := by
  cases xs with
  | nil => cases h
  | cons x xs =>
    cases h
    rfl

/-- A running maximum is at least its start and every value it has met. -/
theorem le_foldl_max {α : Type} (f : α → Nat) (xs : List α) (m : Nat) :
    m ≤ xs.foldl (fun m x => max m (f x)) m ∧ ∀ x ∈ xs, f x ≤ xs.foldl (fun m x => max m (f x)) m := by
  induction xs generalizing m with
  | nil => simp
  | cons y ys ih =>
    obtain ⟨hm, hys⟩ := ih (max m (f y))
    simp only [List.foldl_cons, List.forall_mem_cons]
    exact ⟨by omega, by omega, hys⟩

/-- No channel is above the greatest (R372). -/
theorem Bank.le_greatest {α : Type} (f : α → Nat) (b : Bank α) : b.All fun x => f x ≤ b.greatest f := by
  obtain ⟨hfirst, hrest⟩ := le_foldl_max f b.rest (f b.first)
  exact List.forall_mem_cons.2 ⟨hfirst, hrest⟩

/-- A list of channels built one by one: as many as asked for, each built from one that was asked for. -/
theorem buildAll_built {α β : Type} {f : α → Except Failure β} (xs : List α) :
    Yields (fun ys => ys.length = xs.length ∧ ∀ y ∈ ys, ∃ x, f x = .ok y) (buildAll f xs) := by
  induction xs with
  | nil => exact .ok ⟨rfl, by simp⟩
  | cons x xs ih =>
    refine .bind fun y hy => .bind fun ys hys => .pure ?_
    obtain ⟨hlen, hall⟩ := ih ys hys
    exact ⟨by simp [hlen], List.forall_mem_cons.2 ⟨⟨x, hy⟩, hall⟩⟩

/-- The same of a bank (R366, R416). -/
theorem buildBank_built {α β : Type} {f : α → Except Failure β} (b : Bank α) :
    Yields (fun b' => b'.count = b.count ∧ b'.All fun y => ∃ x, f x = .ok y) (buildBank f b) := by
  refine .bind fun y hy => .bind fun ys hys => .pure ?_
  obtain ⟨hlen, hall⟩ := buildAll_built b.rest ys hys
  exact ⟨by simp [Bank.count, hlen], List.forall_mem_cons.2 ⟨⟨_, hy⟩, hall⟩⟩

/-! ### Lengths -/

@[simp] theorem packGroups_length (k : Nat) (xs : List Bool) : (packGroups k xs).length = k := by
  induction k generalizing xs with
  | zero => rfl
  | succ k ih => simp [packGroups, ih]

@[simp] theorem packBytes_length (xs : List Bool) : (packBytes xs).length = (xs.length + 7) / 8 :=
  packGroups_length _ _

@[simp] theorem fieldBits_length (v w : Nat) : (fieldBits v w).length = w := by
  simp [fieldBits]

/-- PK_WRBITS appends as many bits as its width says (R251). -/
@[simp] theorem writeField_length (v w : Nat) : (writeField v w).length = w := by
  unfold writeField
  split
  · exact fieldBits_length v w
  · simp only [List.length_append, List.length_replicate, fieldBits_length]
    omega

/-- A read counts the bits it gives (R262). -/
theorem readStream_length (st : Stream) (src : List Bool) (n : Nat) :
    Yields (fun r => r.bits.length = r.count) (readStream st src n) := by
  refine .ite (fun _ => .ite (fun _ => .error) fun _ => .ok ?_) fun _ => .ok ?_
  · simp [circularBits]
  · simp only [List.length_take, List.length_drop]
    omega

@[simp] theorem symbolsOf_length (xs : List Bool) (w : Nat) : (symbolsOf xs w).length = xs.length / w := by
  simp [symbolsOf]

/-- The mask after a decode has a flag for each flag before it and for each output byte (R341). -/
theorem markMask_length (mk : List Bool) (n : Nat) (bad : List Nat) :
    (markMask mk n bad).length = max mk.length n := by
  have hset : ∀ m : List Bool, (bad.foldl (fun m j => m.set (j / 8) true) m).length = m.length := by
    induction bad with
    | nil => exact fun m => rfl
    | cons j bad ih => exact fun m => (ih _).trans (List.length_set ..)
  rw [markMask, hset, List.length_append, List.length_replicate]
  omega

/-- The tiling stops at its room (R361). -/
theorem tileFrom_length (N : NumOps) (half mx bw : Number) (room : Nat) (c : Number) :
    Yields (fun cs => cs.length ≤ room) (tileFrom N half mx bw room c) := by
  induction room generalizing c with
  | zero => exact .ite (fun _ => .error) fun _ => .ok (Nat.le_refl 0)
  | succ room ih =>
    refine .ite (fun _ cs hcs => ?_) fun _ => .ok (Nat.zero_le _)
    cases hr : tileFrom N half mx bw room (N.add c bw) with
    | error e =>
      rw [hr] at hcs
      cases hcs
    | ok rest =>
      rw [hr] at hcs
      cases hcs
      exact Nat.succ_le_succ (ih _ rest hr)

/-- At most `MAX_ELEMS` centres are tiled (R361). -/
theorem tile_length (P : Params) (mn mx bw : Number) :
    Yields (fun cs => cs.length ≤ P.maxElems) (tile P mn mx bw) :=
  tileFrom_length P.num (P.num.div bw (P.num.ofInt 2)) mx bw P.maxElems _

/-! ### Lists by kind (R70, R110, R220) -/

/-- A list object is as its kind's commands make it where it is within the capacity. -/
theorem Obj.wf_of_listLength {P : Params} {o : Obj} (hk : o.kind.isList = true)
    (hl : o.listLength ≤ P.maxElems) : o.Wf P := by
  cases o with
  | bytes | reals | symbols | indices | mask => exact hl
  | chanSyms | packer | stream | tracker | codec | mod | dem => cases hk

theorem Obj.isList_of_asList {o p : Obj} (h : o.asList = some p) : p.kind.isList = true := by
  simp only [Obj.asList] at h
  split at h
  case isTrue hk =>
    cases h
    exact hk
  case isFalse => cases h

@[simp] theorem Obj.dropList_kind (o : Obj) (n : Nat) : (o.dropList n).kind = o.kind := by
  cases o <;> rfl

/-- Only a list takes an integer element (R110). -/
theorem Obj.isList_of_pushInt? {o p : Obj} {v : Bits64} (h : o.pushInt? v = some p) :
    p.kind.isList = true := by
  cases o with
  | bytes | symbols | mask =>
    simp only [Obj.pushInt?, Option.ite_none_right_eq_some, Option.some.injEq] at h
    obtain ⟨-, rfl⟩ := h
    rfl
  | indices =>
    cases h
    rfl
  | reals | chanSyms | packer | stream | tracker | codec | mod | dem => cases h

/-- Only lists are joined (R220). -/
theorem Obj.isList_of_concat? {o p q : Obj} (h : o.concat? p = some q) : q.kind.isList = true := by
  unfold Obj.concat? at h
  split at h <;> cases h <;> rfl

/-- The empty list is within every capacity (R210). -/
theorem Obj.wf_of_emptyOf? {P : Params} {k : Kind} {o : Obj} (h : Obj.emptyOf? k = some o) : o.Wf P := by
  cases k with
  | bytes | reals | symbols | indices | mask =>
    cases h
    exact Nat.zero_le _
  | chanSyms | packer | stream | tracker | codec | mod | dem => cases h

theorem Obj.asStream_eq_some {o : Obj} {st : Stream} : o.asStream = some st ↔ o = .stream st := by
  cases o <;> simp [Obj.asStream]

theorem Obj.asTracker_eq_some {o : Obj} {tr : Tracker} : o.asTracker = some tr ↔ o = .tracker tr := by
  cases o <;> simp [Obj.asTracker]

theorem Obj.asMask_eq_some {o : Obj} {mk : List Bool} : o.asMask = some mk ↔ o = .mask mk := by
  cases o <;> simp [Obj.asMask]

theorem Obj.asDem_eq_some {o : Obj} {d : Demodulator} : o.asDem = some d ↔ o = .dem d := by
  cases o <;> simp [Obj.asDem]

/-! ### Construction from the configuration (R362 to R366, R410 to R416) -/

/-- The lengths CODEC_RS accepts are those of a well-formed Reed-Solomon codec (R330). -/
theorem codec_wf_of_legal {P : Params} {bl ml : Int} (hlegal : rsLengthsLegal bl ml = true)
    (hport : P.rsAccepts (bl.toNat / 8) (ml.toNat / 8) = true) :
    Codec.Wf P ⟨.rs, bl.toNat, ml.toNat⟩ := by
  simp only [rsLengthsLegal, Bool.and_eq_true, decide_eq_true_eq] at hlegal
  obtain ⟨⟨⟨hbl, hml⟩, hbl8⟩, hml8⟩ := hlegal
  refine ⟨?_, ?_, ?_, ?_, hport⟩ <;> dsimp only <;> omega

section
variable {P : Params} {sps rate dsps : Nat} {sepi : Int} {width centre : Number}

/-- A parameter set stores the carrier it was planned for (R364). -/
theorem planTones_carrier :
    Yields (fun t => t.carrier = centre ∧ planTones P sps rate sepi t.carrier = .ok t)
      (planTones P sps rate sepi centre) := by
  intro t ht
  have hc : Yields (fun t => t.carrier = centre) (planTones P sps rate sepi centre) :=
    .bind fun _ _ => .pure rfl
  have hcarrier := hc t ht
  exact ⟨hcarrier, hcarrier ▸ ht⟩

/-- The base plan is the planner's at carrier 0, and the centres fit the capacity (R365). -/
theorem planBands_base {g : Cfg} :
    Yields (fun bp => P.planFSK sps rate (P.num.ofInt 0) sepi = some bp.base ∧ bp.centers.count ≤ P.maxElems)
      (planBands P g sps rate sepi) := by
  refine .bind fun base hbase => .bind fun _ _ => .bind fun cs hcs => .bind fun b hb => .pure ?_
  refine ⟨built_eq_ok.1 hbase, ?_⟩
  rw [Bank.count_eq_length, Bank.toList_of_ofList? (built_eq_ok.1 hb)]
  exact tile_length _ _ _ _ cs hcs

/-- An OFDM modulator channel is what its own carrier builds (R366, R375). -/
theorem buildOfdmLane_carrier :
    Yields (fun l => buildOfdmLane P sps rate sepi width l.tones.carrier = .ok l)
      (buildOfdmLane P sps rate sepi width centre) := by
  intro l hl
  have hc : Yields (fun l => l.tones.carrier = centre) (buildOfdmLane P sps rate sepi width centre) :=
    .bind fun t ht => .bind fun _ _ => .pure (planTones_carrier t ht).1
  rw [hc l hl]
  exact hl

/-- The channels built for a modulator are those its stored parameters build (R364 to R366, R375). -/
theorem buildModBody_wf {g : Cfg} (m : ModKind) :
    Yields (ModBody.Wf P sps rate sepi) (buildModBody P g sps rate sepi m) := by
  cases m with
  | bfsk => exact .bind fun t ht => .pure (planTones_carrier t ht).2
  | ofdm =>
    refine .bind fun bp hbp => .bind fun lanes hlanes => .pure ?_
    obtain ⟨hbase, hfits⟩ := planBands_base bp hbp
    obtain ⟨hcount, hall⟩ := buildBank_built _ lanes hlanes
    refine ⟨hbase, hcount ▸ hfits, fun l hl => ?_⟩
    obtain ⟨c, hc⟩ := hall l hl
    exact buildOfdmLane_carrier l hc
  | fhss =>
    refine .bind fun bp hbp => .bind fun lanes hlanes => .pure ?_
    obtain ⟨hbase, hfits⟩ := planBands_base bp hbp
    obtain ⟨hcount, hall⟩ := buildBank_built _ lanes hlanes
    refine ⟨hbase, hcount ▸ hfits, fun t ht => ?_⟩
    obtain ⟨c, hc⟩ := hall t ht
    exact (planTones_carrier t hc).2

/-- MOD_NEW builds a well-formed modulator (R362, R363). -/
theorem buildMod_wf {g : Cfg} (m : ModKind) : Yields (Modulator.Wf P) (buildMod P g m) := by
  refine .bind fun _ hlegal => .bind fun body hbody => .pure ?_
  have hcfg := require_eq_ok.1 hlegal
  simp only [modConfigLegal, Bool.and_eq_true, decide_eq_true_eq] at hcfg
  obtain ⟨⟨⟨⟨-, hrate⟩, hsps⟩, hexpf⟩, -⟩ := hcfg
  refine ⟨?_, ?_, ?_, buildModBody_wf m body hbody⟩ <;> dsimp only <;> omega

/-- A demodulator channel stores the parameter set of its design context (R412). -/
theorem buildChan_tones {ctx : DesignCtx} : Yields (fun ch => ch.tones = ctx.tones) (buildChan P ctx) :=
  .bind fun _ _ => .bind fun _ _ => .bind fun _ _ => .bind fun _ _ => .pure rfl

/-- The same of a channel with its stage-6 filter (R414). -/
theorem buildSmoothChan_tones {ctx : DesignCtx} :
    Yields (fun ch => ch.chan.tones = ctx.tones) (buildSmoothChan P ctx) :=
  .bind fun ch hch => .bind fun _ _ => .pure (buildChan_tones ch hch)

/-- A channel's design context, by the parameter set planned for the centre (R415). -/
theorem channelCtx_planned :
    Yields (fun ctx => planTones P sps rate sepi ctx.tones.carrier = .ok ctx.tones ∧
        ctx = ⟨sps, rate, dsps, ctx.tones, some ⟨ctx.tones.carrier, width⟩⟩)
      (channelCtx P sps rate dsps sepi width centre) := by
  refine .bind fun t ht => .pure ?_
  obtain ⟨hcarrier, hplan⟩ := planTones_carrier t ht
  exact ⟨hplan, by rw [hcarrier]⟩

/-- An OFDM demodulator channel is what its own parameter set builds (R416). -/
theorem smoothChannel_wf :
    Yields (fun ch => planTones P sps rate sepi ch.chan.tones.carrier = .ok ch.chan.tones ∧
        buildSmoothChan P
          ⟨sps, rate, dsps, ch.chan.tones, some ⟨ch.chan.tones.carrier, width⟩⟩ = .ok ch)
      (channelCtx P sps rate dsps sepi width centre >>= buildSmoothChan P) := by
  refine .bind fun ctx hctx ch hch => ?_
  obtain ⟨hplan, heq⟩ := channelCtx_planned ctx hctx
  rw [buildSmoothChan_tones ch hch, ← heq]
  exact ⟨hplan, hch⟩

/-- An FHSS demodulator channel is what its own parameter set builds (R416). -/
theorem channel_wf :
    Yields (fun ch => planTones P sps rate sepi ch.tones.carrier = .ok ch.tones ∧
        buildChan P ⟨sps, rate, dsps, ch.tones, some ⟨ch.tones.carrier, width⟩⟩ = .ok ch)
      (channelCtx P sps rate dsps sepi width centre >>= buildChan P) := by
  refine .bind fun ctx hctx ch hch => ?_
  obtain ⟨hplan, heq⟩ := channelCtx_planned ctx hctx
  rw [buildChan_tones ch hch, ← heq]
  exact ⟨hplan, hch⟩

/-- The channels built for a demodulator are those its stored parameters build (R412 to R416). -/
theorem buildDemBody_wf {g : Cfg} (m : ModKind) :
    Yields (DemBody.Wf P sps rate dsps sepi) (buildDemBody P g sps rate dsps sepi m) := by
  cases m with
  | bfsk =>
    refine .bind fun t ht => .bind fun ch hch => .pure ?_
    have htones : ch.chan.tones = t := buildSmoothChan_tones ch hch
    exact ⟨htones ▸ (planTones_carrier t ht).2, htones ▸ hch⟩
  | ofdm =>
    refine .bind fun bp hbp => .bind fun chans hchans => .pure ?_
    obtain ⟨hbase, hfits⟩ := planBands_base bp hbp
    obtain ⟨hcount, hall⟩ := buildBank_built _ chans hchans
    refine ⟨hbase, hcount ▸ hfits, fun ch hch => ?_⟩
    obtain ⟨c, hc⟩ := hall ch hch
    exact smoothChannel_wf ch hc
  | fhss =>
    refine .bind fun bp hbp => .bind fun chans hchans => .bind fun lp hlp => .pure ?_
    obtain ⟨hbase, hfits⟩ := planBands_base bp hbp
    obtain ⟨hcount, hall⟩ := buildBank_built _ chans hchans
    refine ⟨hbase, hcount ▸ hfits, fun ch hch => ?_, hlp⟩
    obtain ⟨c, hc⟩ := hall ch hch
    exact channel_wf ch hc

/-- DEM_NEW builds a well-formed demodulator (R410, R411). -/
theorem buildDem_wf {g : Cfg} (m : ModKind) : Yields (Demodulator.Wf P) (buildDem P g m) := by
  refine .bind fun _ hlegal => .bind fun body hbody => .pure ?_
  have hcfg := require_eq_ok.1 hlegal
  simp only [demConfigLegal, Bool.and_eq_true, decide_eq_true_eq] at hcfg
  obtain ⟨⟨⟨⟨⟨-, hrate⟩, hsps⟩, hdsps⟩, hdsps2⟩, -⟩ := hcfg
  refine ⟨?_, ?_, ?_, ?_, rfl, rfl, rfl, buildDemBody_wf m body hbody⟩ <;> dsimp only <;> omega

end

end Sys2Proof.Machine
end

section
/-! PROOFS. The invariant `Inv` is kept by every step (R52, R58 to R60, R63, R70 to R74): a command's rule
keeps everything of it but what the status registers record when the command ends. -/

namespace Sys2Proof.Machine

/-- The invariant without its clauses on `STATUS`, which is recorded anew when a command ends. Unlike `Inv`,
a command's rule keeps it by itself: CLRERR clears `STICKY` before `STATUS` is recorded (R208). -/
structure Sound (P : Params) (s : State) : Prop where
  slots : slotsWf s.slots = true
  objects : ∀ h o, slotGet s.slots h = some o → o.Wf P
  stickyClear : ∀ k, k = 0 ∨ 14 ≤ k → s.sticky.getLsbD k = false
  errcmd : s.errcmd.toNat < 2 ^ 32
  decoder : s.dec.Wf

namespace Inv

variable {P : Params} {s : State}

/-- A state that meets the invariant is sound. -/
theorem sound (h : Inv P s) : Sound P s := ⟨h.slots, h.objects, h.stickyClear, h.errcmd, h.decoder⟩

/-- The decoder may take any state that is part way through a command (R52). -/
theorem setDec {d : Decoder} (h : Inv P s) (hd : d.Wf) : Inv P { s with dec := d } :=
  ⟨h.slots, h.objects, h.status, h.stickyClear, h.stickyStatus, h.errcmd, hd⟩

/-- The host's side of the port is not block state (R105). -/
theorem setHost {pending : List HostOp} {replies : List Bits64} (h : Inv P s) :
    Inv P { s with pending := pending, replies := replies } :=
  ⟨h.slots, h.objects, h.status, h.stickyClear, h.stickyStatus, h.errcmd, h.decoder⟩

end Inv

/-! ### One rule per operation on the state -/

namespace Sound

variable {P : Params} {s t : State}

/-- Soundness speaks of four fields. -/
theorem of_eq (w : Sound P s) (hslots : t.slots = s.slots) (hsticky : t.sticky = s.sticky)
    (herrcmd : t.errcmd = s.errcmd) (hdec : t.dec = s.dec) : Sound P t :=
  ⟨hslots ▸ w.slots, hslots ▸ w.objects, hsticky ▸ w.stickyClear, herrcmd ▸ w.errcmd, hdec ▸ w.decoder⟩

theorem setI {r : IReg} {v : Bits64} (w : Sound P s) : Sound P (s.setI r v) := w.of_eq rfl rfl rfl rfl

theorem setF {r : FReg} {v : Number} (w : Sound P s) : Sound P (s.setF r v) := w.of_eq rfl rfl rfl rfl

theorem setR {r : RReg} {v : Bits64} (w : Sound P s) : Sound P (s.setR r v) := w.of_eq rfl rfl rfl rfl

theorem setRNat {r : RReg} {n : Nat} (w : Sound P s) : Sound P (s.setRNat r n) := w.setR

theorem setRInt {r : RReg} {v : Int} (w : Sound P s) : Sound P (s.setRInt r v) := w.setR

theorem setRF {r : RReg} {v : Number} (w : Sound P s) : Sound P (s.setRF r v) := w.of_eq rfl rfl rfl rfl

theorem setRFs {x0 x1 x2 x3 : Number} (w : Sound P s) : Sound P (s.setRFs x0 x1 x2 x3) :=
  w.setRF.setRF.setRF.setRF

theorem putObj {h : Handle} {o : Obj} (w : Sound P s) (hh : h ≠ 0) (ho : o.Wf P) :
    Sound P (s.putObj h o) := by
  refine ⟨slotsWf_putObj o hh w.slots, fun g x hx => ?_, w.stickyClear, w.errcmd, w.decoder⟩
  rw [State.putObj_slots, slotGet_slotPut] at hx
  split at hx
  case isTrue =>
    cases hx
    exact ho
  case isFalse => exact w.objects g x hx

theorem freeObj {h : Handle} (w : Sound P s) : Sound P (s.freeObj h) := by
  refine ⟨slotsWf_freeObj h w.slots, fun g x hx => ?_, w.stickyClear, w.errcmd, w.decoder⟩
  have hx' := (slotGet_slotErase s.slots h.toNat g).symm.trans hx
  split at hx'
  case isTrue => cases hx'
  case isFalse => exact w.objects g x hx'

/-- A reset makes the block sound, whatever it was before (R700). -/
theorem resetBlock : Sound P (s.resetBlock P) :=
  ⟨slotsWf_resetWith P, nofun, fun _ _ => BitVec.getLsbD_zero, Nat.two_pow_pos 32, trivial⟩

/-- An operand's object is one its kind's commands make. -/
theorem of_existing {α : Type} {h : Handle} {view : Obj → Option α} {v : α} (w : Sound P s)
    (e : existing s h view = .ok v) : h ≠ 0 ∧ ∃ o, view o = some v ∧ o.Wf P := by
  obtain ⟨hh, o, ho, hv⟩ := existing_eq_ok.1 e
  exact ⟨hh, o, hv, w.objects _ o ho⟩

theorem of_existing_stream {h : Handle} {st : Stream} (w : Sound P s)
    (e : existing s h Obj.asStream = .ok st) : h ≠ 0 ∧ st.Wf := by
  obtain ⟨hh, o, hv, ho⟩ := w.of_existing e
  cases Obj.asStream_eq_some.1 hv
  exact ⟨hh, ho⟩

theorem of_existing_tracker {h : Handle} {tr : Tracker} (w : Sound P s)
    (e : existing s h Obj.asTracker = .ok tr) : h ≠ 0 ∧ tr.Wf := by
  obtain ⟨hh, o, hv, ho⟩ := w.of_existing e
  cases Obj.asTracker_eq_some.1 hv
  exact ⟨hh, ho⟩

theorem of_existing_dem {h : Handle} {d : Demodulator} (w : Sound P s)
    (e : existing s h Obj.asDem = .ok d) : d.Wf P := by
  obtain ⟨-, o, hv, ho⟩ := w.of_existing e
  cases Obj.asDem_eq_some.1 hv
  exact ho

/-- A mask operand that is present names a mask within the capacity (R135). -/
theorem of_optional_mask {h : Handle} {mk : List Bool} (w : Sound P s)
    (e : optional s h Obj.asMask = .ok (some mk)) : h ≠ 0 ∧ mk.length ≤ P.maxElems := by
  rcases optional_eq_ok.1 e with ⟨-, hnone⟩ | ⟨hh, o, v, ho, hv, hsome⟩
  · cases hnone
  · cases hsome
    cases Obj.asMask_eq_some.1 hv
    exact ⟨hh, w.objects _ _ ho⟩

end Sound

/-- A fresh destination is not the null handle (R200). -/
theorem ne_zero_of_fresh {s : State} {h : Handle} {u : Unit} (e : fresh s h = .ok u) : h ≠ 0 :=
  (fresh_eq_ok.1 e).1

/-- An existing operand is not the null handle (R200). -/
theorem ne_zero_of_existing {α : Type} {s : State} {h : Handle} {view : Obj → Option α} {v : α}
    (e : existing s h view = .ok v) : h ≠ 0 := (existing_eq_ok.1 e).1

/-! ### Every command's rule -/

/-- What a command's rule completes with is sound. -/
abbrev KeepsSound (P : Params) (r : Result) : Prop := Yields (fun p => Sound P p.2) r

section

variable {P : Params} {s : State} (w : Sound P s)
include w

/-! #### Registers and control (R201 to R214) -/

theorem cfgWriRule_sound (a : CfgReg) (b : IReg) : KeepsSound P (cfgWriRule a b s) := by
  unfold cfgWriRule
  split
  · exact .ok (w.of_eq rfl rfl rfl rfl)
  · exact .error

theorem cfgWrfRule_sound (a : CfgReg) (b : FReg) : KeepsSound P (cfgWrfRule a b s) := by
  unfold cfgWrfRule
  split
  · exact .ok (w.of_eq rfl rfl rfl rfl)
  · exact .error

theorem cfgRdRule_sound (a : CfgReg) : KeepsSound P (cfgRdRule a s) := by
  unfold cfgRdRule
  split
  · exact .ok w.setR
  · exact .ok w.setRF

theorem clrerrRule_sound : KeepsSound P (clrerrRule s) :=
  .ok ⟨w.slots, w.objects, fun _ _ => BitVec.getLsbD_zero, w.errcmd, w.decoder⟩

/-! #### Objects and buffers (R210 to R221) -/

theorem bufNewRule_sound (a : Handle) (k : Kind) : KeepsSound P (bufNewRule a k s) := by
  unfold bufNewRule
  split
  · exact .error
  · next o ho => exact .bind fun _ hf => .ok (w.putObj (ne_zero_of_fresh hf) (Obj.wf_of_emptyOf? ho))

theorem bufPushiRule_sound (a : Handle) (b : IReg) : KeepsSound P (bufPushiRule P a b s) := by
  refine .bind fun o ho => ?_
  split
  · exact .error
  · next o' ho' =>
    exact .bind fun _ hfit => .ok (w.putObj (ne_zero_of_existing ho)
      (Obj.wf_of_listLength (Obj.isList_of_pushInt? ho') (requireElems_eq_ok.1 hfit)))

theorem bufPushfRule_sound (a : Handle) (b : FReg) : KeepsSound P (bufPushfRule P a b s) := by
  refine .bind fun xs hxs => .bind fun _ hfit => .ok (w.putObj (ne_zero_of_existing hxs) ?_)
  exact (List.length_append ..).trans_le (requireElems_eq_ok.1 hfit)

theorem bufGetiRule_sound (a : Handle) (b : IReg) : KeepsSound P (bufGetiRule a b s) := by
  refine .bind fun o _ => ?_
  split
  · exact .error
  · exact .ok w.setR

theorem bufGetfRule_sound (a : Handle) (b : IReg) : KeepsSound P (bufGetfRule a b s) := by
  refine .bind fun xs _ => ?_
  split
  · exact .error
  · exact .ok w.setRF

theorem bufSliceRule_sound (a b : Handle) (c : IReg) : KeepsSound P (bufSliceRule P a b c s) := by
  refine .bind fun _ hf => .bind fun o ho => .bind fun _ _ => .bind fun _ hfit =>
    .ok (w.putObj (ne_zero_of_fresh hf) (Obj.wf_of_listLength ?_ (requireElems_eq_ok.1 hfit)))
  obtain ⟨-, x, hx, -⟩ := w.of_existing ho
  rw [Obj.dropList_kind]
  exact Obj.isList_of_asList hx

theorem bufConcatRule_sound (a b : Handle) : KeepsSound P (bufConcatRule P a b s) := by
  refine .bind fun o ho => .bind fun o' ho' => .bind fun _ hfit => .ok (w.putObj (ne_zero_of_existing ho) ?_)
  obtain ⟨-, p, hp, -⟩ := w.of_existing ho'
  exact Obj.wf_of_listLength (Obj.isList_of_concat? hp) (requireElems_eq_ok.1 hfit)

theorem chGetRule_sound (a b : Handle) (c : IReg) : KeepsSound P (chGetRule P a b c s) := by
  refine .bind fun _ hf => .bind fun chs _ => ?_
  split
  · exact .error
  · exact .bind fun _ hfit => .ok (w.putObj (ne_zero_of_fresh hf) (requireElems_eq_ok.1 hfit))

/-! #### Packer (R250 to R254) -/

theorem pkNewRule_sound (a : Handle) : KeepsSound P (pkNewRule a s) :=
  .bind fun _ hf => .ok (w.putObj (ne_zero_of_fresh hf) (Nat.zero_le _))

theorem pkWrbitsRule_sound (a : Handle) (b c : IReg) : KeepsSound P (pkWrbitsRule P a b c s) := by
  refine .bind fun bits hbits => .bind fun _ _ => .bind fun _ _ => .bind fun _ hfit =>
    .ok (w.putObj (ne_zero_of_existing hbits) ?_)
  rw [Obj.Wf, List.length_append, writeField_length]
  exact requireBits_eq_ok.1 hfit

theorem pkWrbytesRule_sound (a b : Handle) : KeepsSound P (pkWrbytesRule P a b s) := by
  refine .bind fun bits hbits => .bind fun bs _ => .bind fun _ hfit =>
    .ok (w.putObj (ne_zero_of_existing hbits) ?_)
  exact (List.length_append ..).trans_le (requireBits_eq_ok.1 hfit)

theorem pkFlushRule_sound (a b : Handle) : KeepsSound P (pkFlushRule P a b s) :=
  .bind fun _ hf => .bind fun _ _ => .bind fun _ hfit =>
    .ok (w.putObj (ne_zero_of_fresh hf) (requireElems_eq_ok.1 hfit))

/-! #### Stream (R260 to R268) -/

theorem stNewRule_sound (a b : Handle) (circular : Bool) : KeepsSound P (stNewRule a b circular s) :=
  .bind fun _ hf => .bind fun _ hsrc => .ok (w.putObj (ne_zero_of_fresh hf) (ne_zero_of_existing hsrc))

theorem stRdbitsRule_sound (a b : Handle) (c : IReg) : KeepsSound P (stRdbitsRule P a b c s) := by
  refine .bind fun st hst => .bind fun _ hf => .bind fun src _ => .bind fun _ _ => .bind fun r hr =>
    .bind fun _ hfit => .pure ?_
  obtain ⟨ha, hwf⟩ := w.of_existing_stream hst
  have hbytes : (packBytes r.bits).length ≤ P.maxElems := by
    rw [packBytes_length, readStream_length st src.bits _ r hr]
    exact requireElems_eq_ok.1 hfit
  exact .setRNat (.putObj (w.putObj (ne_zero_of_fresh hf) hbytes) ha hwf)

/-- ST_RDU and ST_RDS alike (R264, R265). -/
theorem readIntegerRule_sound (extend : Nat → Nat → Bits64) (a : Handle) (b c : IReg) :
    KeepsSound P (readIntegerRule extend a b c s) := by
  refine .bind fun st hst => .bind fun src _ => .bind fun _ _ => .bind fun r _ => .pure ?_
  obtain ⟨ha, hwf⟩ := w.of_existing_stream hst
  exact w.setI.setRNat.putObj ha hwf

theorem stPeekRule_sound (a b : Handle) : KeepsSound P (stPeekRule P a b s) :=
  .bind fun _ _ => .bind fun _ hf => .bind fun _ _ => .bind fun _ hfit =>
    .ok (w.setRNat.setRNat.putObj (ne_zero_of_fresh hf) (requireElems_eq_ok.1 hfit))

theorem stRemainRule_sound (a : Handle) : KeepsSound P (stRemainRule a s) :=
  .bind fun _ _ => .bind fun _ _ =>
    .ite (fun _ => .bind fun _ _ => .ok w.setR.setR) fun _ => .ok w.setRNat.setR

/-! #### Tracker (R300 to R304) -/

theorem trkNewRule_sound (a b : Handle) (c : IReg) : KeepsSound P (trkNewRule a b c s) := by
  refine .bind fun _ hf => .bind fun _ hsrc => .bind fun _ hw => .ok (w.putObj (ne_zero_of_fresh hf) ?_)
  have hwidth := require_eq_ok.1 hw
  simp only [Bool.and_eq_true, decide_eq_true_eq] at hwidth
  refine ⟨ne_zero_of_existing hsrc, ?_, ?_⟩ <;> dsimp only <;> omega

theorem trkNextRule_sound (a : Handle) (b : IReg) : KeepsSound P (trkNextRule a b s) := by
  refine .bind fun tr htr => .bind fun src _ => ?_
  obtain ⟨ha, hwf⟩ := w.of_existing_tracker htr
  exact .ite (fun _ => .ok (.setR (w.setI.putObj ha hwf))) fun _ => .pure (.setR (w.putObj ha hwf))

theorem trkTolistRule_sound (a b : Handle) (c : IReg) : KeepsSound P (trkTolistRule P a b c s) := by
  refine .bind fun _ hf => .bind fun src _ => .bind fun _ _ => .bind fun _ hfit =>
    .ok (.setRNat (w.putObj (ne_zero_of_fresh hf) ?_))
  exact (symbolsOf_length ..).trans_le (requireElems_eq_ok.1 hfit)

/-! #### Codecs (R320 to R342) -/

theorem codecManRule_sound (a : Handle) : KeepsSound P (codecManRule a s) :=
  .bind fun _ hf => .ok (w.putObj (ne_zero_of_fresh hf) ⟨rfl, rfl⟩)

theorem codecRsRule_sound (a : Handle) (b c : IReg) : KeepsSound P (codecRsRule P a b c s) :=
  .bind fun _ hf => .bind fun _ hlegal => .bind fun _ hport =>
    .ok (w.putObj (ne_zero_of_fresh hf)
      (codec_wf_of_legal (require_eq_ok.1 hlegal) (require_eq_ok.1 hport)))

theorem codecEncRule_sound (a b c : Handle) : KeepsSound P (codecEncRule P a b c s) :=
  .bind fun _ hf => .bind fun _ _ => .bind fun _ _ => .bind fun _ hfit =>
    .ok (.setRNat (w.putObj (ne_zero_of_fresh hf) (requireElems_eq_ok.1 hfit)))

/-- Writing the mask back keeps soundness where the mask written fits. -/
theorem putMask_sound {d : Handle} {mask : Option (List Bool)}
    (hm : ∀ mk, mask = some mk → d ≠ 0 ∧ mk.length ≤ P.maxElems) : Sound P (putMask s d mask) := by
  cases mask with
  | none => exact w
  | some mk =>
    obtain ⟨hd, hlen⟩ := hm mk rfl
    exact w.putObj hd hlen

end

/-- A decode writes a mask only where it was given one, and the mask written is as long as the longer of the
one given and the output (R341). -/
theorem decodeBytes_mask (P : Params) (c : Codec) (bs : List Byte) (mask : Option (List Bool)) :
    Yields (fun r => ∀ mk', r.mask = some mk' →
        ∃ mk, mask = some mk ∧ mk'.length = max mk.length r.out.length)
      (decodeBytes P c bs mask) := by
  unfold decodeBytes
  split
  · refine .ok fun mk' hmk' => ?_
    obtain ⟨mk, hmk, rfl⟩ := Option.map_eq_some_iff.1 hmk'
    exact ⟨mk, hmk, markMask_length ..⟩
  · exact .bind fun _ _ => .pure nofun

section

variable {P : Params} {s : State} (w : Sound P s)
include w

theorem codecDecRule_sound (a b c d : Handle) : KeepsSound P (codecDecRule P a b c d s) := by
  refine .bind fun _ hf => .bind fun cd _ => .bind fun bs _ => .bind fun mask hmask => .bind fun r hr =>
    .bind fun _ hfit => .pure ?_
  have hout : r.out.length ≤ P.maxElems := requireElems_eq_ok.1 hfit
  have hput : Sound P (putMask s d r.mask) := by
    refine putMask_sound w fun mk' hmk' => ?_
    obtain ⟨mk, rfl, hlen⟩ := decodeBytes_mask P cd bs mask r hr mk' hmk'
    obtain ⟨hd, hmk⟩ := w.of_optional_mask hmask
    exact ⟨hd, by omega⟩
  exact .setRNat (.setRNat (hput.putObj (ne_zero_of_fresh hf) hout))

/-! #### Carriers and modulators (R360 to R380) -/

theorem carriersRule_sound (a : Handle) (b : FReg) : KeepsSound P (carriersRule P a b s) :=
  .bind fun _ _ => .bind fun _ hf => .bind fun _ _ => .bind fun _ _ => .bind fun cs hcs =>
    .ok (.setRNat (w.putObj (ne_zero_of_fresh hf) (tile_length _ _ _ _ cs hcs)))

theorem modNewRule_sound (a : Handle) (m : ModKind) : KeepsSound P (modNewRule P a m s) :=
  .bind fun _ hf => .bind fun md hmd =>
    .ok (.setRNat (w.putObj (ne_zero_of_fresh hf) (buildMod_wf m md hmd)))

theorem modRunRule_sound (a b c d : Handle) : KeepsSound P (modRunRule P a b c d s) := by
  refine .bind fun out0 hout => .bind fun m _ => .bind fun syms _ => .bind fun sent _ => .bind fun _ _ =>
    .bind fun _ hfit => .ok ?_
  refine .setRNat (.putObj (w.of_eq rfl rfl rfl rfl) (ne_zero_of_existing hout) ?_)
  exact (List.length_append ..).trans_le (requireElems_eq_ok.1 hfit)

theorem modInfoRule_sound (a b : Handle) : KeepsSound P (modInfoRule P a b s) := by
  refine .bind fun _ _ => .bind fun m _ => .ite (fun _ => .ok ?_) fun ha => .bind fun _ hfit => .ok ?_
  · exact w.setRNat.setR.setRNat.setRFs
  · exact w.setRNat.setR.setRNat.setRFs.putObj ha (requireElems_eq_ok.1 hfit)

/-! #### Demodulators (R410 to R445) -/

theorem demNewRule_sound (a : Handle) (m : ModKind) : KeepsSound P (demNewRule P a m s) :=
  .bind fun _ hf => .bind fun d hd =>
    .ok (.setRNat (w.putObj (ne_zero_of_fresh hf) (buildDem_wf m d hd)))

theorem demRunRule_sound (a b c : Handle) : KeepsSound P (demRunRule P a b c s) := by
  refine .bind fun _ hf => .bind fun d hd => .bind fun xs _ => ?_
  have ha := ne_zero_of_fresh hf
  split
  · exact .bind fun _ hfit => .ok (.setRNat (.setRNat (w.putObj ha (requireElems_eq_ok.1 hfit))))
  · exact .bind fun _ hfit => .ok (.setRNat (.setRNat (w.putObj ha (requireElems_eq_ok.1 hfit))))
  · next base width chans hbody =>
    refine .bind fun _ hfit => .ok (.setRNat (.setRNat (w.putObj ha ⟨?_, fun ys hys => ?_⟩)))
    · obtain ⟨-, -, -, -, -, -, -, hwf⟩ := w.of_existing_dem hd
      rw [hbody] at hwf
      obtain ⟨-, hcount, -⟩ := hwf
      rwa [Bank.count_map]
    · exact (Bank.le_greatest List.length _ ys hys).trans (requireElems_eq_ok.1 hfit)

theorem demSoftRule_sound (a b c : Handle) : KeepsSound P (demSoftRule P a b c s) := by
  refine .bind fun _ hf => .bind fun d _ => .bind fun xs _ => ?_
  split
  · exact .error
  · exact .bind fun _ hfit => .ok (.setRNat (w.putObj (ne_zero_of_fresh hf) (requireElems_eq_ok.1 hfit)))

theorem demAssembleRule_sound (a b : Handle) (c : IReg) : KeepsSound P (demAssembleRule P a b c s) :=
  .bind fun _ hf => .bind fun _ _ => .bind fun _ _ => .bind fun _ hfit =>
    .ok (.setRNat (w.putObj (ne_zero_of_fresh hf) (requireElems_eq_ok.1 hfit)))

theorem demInfoRule_sound (a : Handle) : KeepsSound P (demInfoRule a s) :=
  .bind fun _ _ => .ok w.setRNat.setR.setRNat.setRNat.setRFs

/-! #### Timing recovery and frame sync (R470 to R510) -/

theorem trGardnerRule_sound (a b : Handle) (c : IReg) : KeepsSound P (trGardnerRule P a b c s) := by
  refine .bind fun _ hf => .bind fun xs _ => .bind fun _ _ => .bind fun _ hfit =>
    .ok (.setRNat (.setRNat (.setRInt (w.putObj (ne_zero_of_fresh hf) ?_))))
  exact (List.length_map ..).trans_le (requireElems_eq_ok.1 hfit)

theorem trDecideRule_sound (a b c : Handle) : KeepsSound P (trDecideRule P a b c s) := by
  refine .bind fun _ hf => .bind fun xs _ => .bind fun ks _ => .bind fun _ _ => .bind fun _ hfit =>
    .ok (.setRNat (w.putObj (ne_zero_of_fresh hf) ?_))
  exact (List.length_map ..).trans_le (requireElems_eq_ok.1 hfit)

theorem syncLocateRule_sound (a b : Handle) : KeepsSound P (syncLocateRule a b s) := by
  refine .bind fun r _ => .bind fun sent _ => ?_
  split
  · exact .error
  · exact .ok w.setRNat.setRInt.setRInt

theorem syncMultiRule_sound (a b : Handle) : KeepsSound P (syncMultiRule a b s) := by
  refine .bind fun chs _ => .bind fun sent _ => ?_
  dsimp only
  split
  · exact .error
  · exact .ok w.setRNat.setRNat.setRNat

/-- Every command's rule keeps soundness (R140). -/
theorem commandRule_sound (i : Instr) : KeepsSound P (commandRule P i s) := by
  cases i with
  | nop => exact .ok w
  | seti | movr | addi => exact .ok w.setI
  | setf | movrf => exact .ok w.setF
  | cfgWri a b => exact cfgWriRule_sound w a b
  | cfgWrf a b => exact cfgWrfRule_sound w a b
  | cfgRd a => exact cfgRdRule_sound w a
  | clrerr => exact clrerrRule_sound w
  | reset => exact .ok .resetBlock
  | bufNew a k => exact bufNewRule_sound w a k
  | bufFree => exact .bind fun _ _ => .ok w.freeObj
  | bufLen => exact .bind fun _ _ => .ok w.setRNat.setR
  | bufPushi a b => exact bufPushiRule_sound w a b
  | bufPushf a b => exact bufPushfRule_sound w a b
  | bufGeti a b => exact bufGetiRule_sound w a b
  | bufGetf a b => exact bufGetfRule_sound w a b
  | bufSlice a b c => exact bufSliceRule_sound w a b c
  | bufConcat a b => exact bufConcatRule_sound w a b
  | chGet a b c => exact chGetRule_sound w a b c
  | pkNew a => exact pkNewRule_sound w a
  | pkWrbits a b c => exact pkWrbitsRule_sound w a b c
  | pkWrbytes a b => exact pkWrbytesRule_sound w a b
  | pkFlush a b => exact pkFlushRule_sound w a b
  | stNew a b m => exact stNewRule_sound w a b m
  | stRdbits a b c => exact stRdbitsRule_sound w a b c
  | stRdu a b c => exact readIntegerRule_sound w (fun _ v => BitVec.ofNat 64 v) a b c
  | stRds a b c => exact readIntegerRule_sound w signExtendNat a b c
  | stPeek a b => exact stPeekRule_sound w a b
  | stRemain a => exact stRemainRule_sound w a
  | trkNew a b c => exact trkNewRule_sound w a b c
  | trkNext a b => exact trkNextRule_sound w a b
  | trkTolist a b c => exact trkTolistRule_sound w a b c
  | codecMan a => exact codecManRule_sound w a
  | codecRs a b c => exact codecRsRule_sound w a b c
  | codecEnc a b c => exact codecEncRule_sound w a b c
  | codecDec a b c d => exact codecDecRule_sound w a b c d
  | codecInfo => exact .bind fun _ _ => .ok w.setRNat.setRNat.setR
  | carriers a b => exact carriersRule_sound w a b
  | modNew a m => exact modNewRule_sound w a m
  | modRun a b c d => exact modRunRule_sound w a b c d
  | modInfo a b => exact modInfoRule_sound w a b
  | demNew a m => exact demNewRule_sound w a m
  | demRun a b c => exact demRunRule_sound w a b c
  | demSoft a b c => exact demSoftRule_sound w a b c
  | demAssemble a b c => exact demAssembleRule_sound w a b c
  | demInfo a => exact demInfoRule_sound w a
  | trGardner a b c => exact trGardnerRule_sound w a b c
  | trDecide a b c => exact trDecideRule_sound w a b c
  | syncLocate a b => exact syncLocateRule_sound w a b
  | syncMulti a b => exact syncMultiRule_sound w a b

end

/-! ### How a command ends, and the command port -/

/-- Bit `k` of `STICKY` after a status that is not `OK` (R59). -/
theorem getLsbD_stickyAfter {sticky : Bits64} {code k : Nat} (hcode : code ≠ 0) (hk : k < 64) :
    (stickyAfter sticky code).getLsbD k = (sticky.getLsbD k || decide (code = k)) := by
  have hbit : stickyAfter sticky code = sticky ||| BitVec.ofNat 64 (1 <<< code) := if_neg hcode
  rw [hbit, BitVec.getLsbD_or, BitVec.getLsbD_ofNat, Nat.one_shiftLeft, Nat.testBit_two_pow,
    decide_eq_true hk, Bool.true_and]

/-- A status code fits `STATUS` (R58, R600). -/
theorem toNat_ofNat_code {code : Nat} (hcode : code ≤ 13) : (BitVec.ofNat 64 code).toNat = code :=
  Nat.mod_eq_of_lt (by omega)

/-- A status code sets no bit of `STICKY` that has to stay clear (R59). -/
theorem stickyAfter_clear {sticky : Bits64} {code k : Nat} (hcode : code ≤ 13) (hk : k = 0 ∨ 14 ≤ k)
    (hclear : sticky.getLsbD k = false) : (stickyAfter sticky code).getLsbD k = false := by
  by_cases hzero : code = 0
  · rw [hzero]
    exact hclear
  · by_cases hlt : k < 64
    · rw [getLsbD_stickyAfter hzero hlt, hclear, Bool.false_or, decide_eq_false (by omega)]
    · exact BitVec.getLsbD_of_ge _ _ (by omega)

/-- `ERRCMD` stays a zero-extended word (R60). -/
theorem errcmdAfter_lt {errcmd : Bits64} (header : Word) (code : Nat) (h : errcmd.toNat < 2 ^ 32) :
    (errcmdAfter errcmd header code).toNat < 2 ^ 32 := by
  unfold errcmdAfter
  split
  · exact h
  · rw [BitVec.toNat_setWidth]
    exact (Nat.mod_le ..).trans_lt header.isLt

/-- Recording a status makes a sound state meet the invariant (R58 to R60). -/
theorem Sound.inv_recordStatus {P : Params} {s : State} (w : Sound P s) (header : Word) {code : Nat}
    (hcode : code ≤ 13) : Inv P (recordStatus s header code) where
  slots := w.slots
  objects := w.objects
  status := (toNat_ofNat_code hcode).trans_le hcode
  stickyClear k hk := stickyAfter_clear hcode hk (w.stickyClear k hk)
  stickyStatus h := by
    rw [State.recordStatus_status] at h ⊢
    have hzero : code ≠ 0 := fun e => h (e ▸ rfl)
    rw [State.recordStatus_sticky, toNat_ofNat_code hcode, getLsbD_stickyAfter hzero (by omega), decide_eq_true rfl, Bool.or_true]
  errcmd := errcmdAfter_lt header code w.errcmd
  decoder := w.decoder

theorem Completion.code_le (c : Completion) : c.code ≤ 13 := by cases c <;> decide

theorem Failure.code_le (e : Failure) : e.code ≤ 13 := by cases e <;> decide

/-- A command run in a sound state ends in one that meets the invariant, whether it completes or raises. -/
theorem exec_inv {i : Instr} {s t : State} (w : Sound Config.params s) (h : exec i s = .next t) :
    Inv Config.params t := by
  rcases exec_cases h with ⟨e, -, rfl⟩ | ⟨c, s', hr, rfl⟩
  · exact w.inv_recordStatus _ e.code_le
  · exact (commandRule_sound w i _ hr).inv_recordStatus _ c.code_le

theorem executeWords_inv {hd : Word} {ext : List Word} {s t : State} (w : Sound Config.params s)
    (h : executeWords hd ext s = .next t) : Inv Config.params t := by
  rcases executeWords_cases hd ext s with ⟨r, -, heq⟩ | ⟨i, -, heq⟩
  · rw [heq] at h
    cases h
    exact w.inv_recordStatus _ (Failure.code_le _)
  · exact exec_inv w (heq ▸ h)

/-- No command is empty (R133). -/
theorem commandLength_pos (h : Word) : 1 ≤ commandLength h := by
  unfold commandLength
  split <;> decide

/-- A header word of a longer command begins collecting (R52, R152). -/
theorem collecting_wf_of_header {h : Word} (hlen : commandLength h ≠ 1) :
    (Decoder.collecting h (commandLength h - 1) []).Wf := by
  have := commandLength_pos h
  refine ⟨by omega, ?_⟩
  rw [List.length_nil]
  omega

/-- A word that is not the last of its command goes on collecting (R52, R152). -/
theorem collecting_wf_append {h v : Word} {need : Nat} {got : List Word} (hneed : need ≠ 1)
    (hwf : (Decoder.collecting h need got).Wf) : (Decoder.collecting h (need - 1) (got ++ [v])).Wf := by
  obtain ⟨hpos, hlen⟩ := hwf
  refine ⟨by omega, ?_⟩
  rw [List.length_append, List.length_singleton]
  omega

/-- A word begins a command, continues one, or is its last word and runs it (R152). -/
theorem issueWord_inv {v : Word} {s t : State} (hs : Inv Config.params s) (h : issueWord v s = .next t) :
    Inv Config.params t := by
  unfold issueWord at h
  split at h
  · split at h
    case isTrue => exact executeWords_inv hs.sound h
    case isFalse hlen =>
      cases h
      exact hs.setDec (collecting_wf_of_header hlen)
  · next hd need got hdec =>
    split at h
    case isTrue => exact executeWords_inv (hs.setDec (d := .idle) trivial).sound h
    case isFalse hneed =>
      cases h
      exact hs.setDec (collecting_wf_append hneed (hdec ▸ hs.decoder))

/-- The reset line leaves `ResetState`, which has the status `OK` (R702). -/
theorem resetBlock_inv (P : Params) (s : State) : Inv P (s.resetBlock P) :=
  (Sound.resetBlock (s := s)).inv_recordStatus 0 (Nat.zero_le 13)

/-- Every operation of the host keeps the invariant (R104). -/
theorem hostStep_inv {op : HostOp} {s t : State} (hs : Inv Config.params s) (h : hostStep op s = .next t) :
    Inv Config.params t := by
  cases op with
  | issue v => exact issueWord_inv hs h
  | read a =>
    cases h
    exact hs.setHost
  | resetLine =>
    cases h
    exact resetBlock_inv _ s

/-- Settles O12: a step waits or performs one host operation, and each keeps the invariant; a command run by
one keeps it because its rule keeps `Sound` and its end records the status. -/
theorem invariantKept : Obligations.InvariantKept := by
  intro s t hs h
  cases hp : s.pending with
  | nil =>
    cases (step_of_waiting hp).symm.trans h
    exact hs
  | cons op rest => exact hostStep_inv hs.setHost ((step_of_pending hp).symm.trans h)

end Sys2Proof.Machine
end

section
/-! PROOFS. CODEC_DEC of a Reed-Solomon codec (R22, R332, R335, R341). -/

namespace Sys2Proof.Machine

/-! ### The port (R22) -/

/-- A decoded message has the length of the codec's messages (R22). -/
theorem rsDecode_length {P : Params} {n k : Nat} {c m : List Byte} {erased : List Nat}
    (h : rsDecode P n k c erased = some m) : m.length = k := by
  obtain ⟨raw, -, rfl⟩ := Option.map_eq_some_iff.1 h
  exact fitTo_length ..

/-- The port is given the same of two blocks that differ at erased positions only (R22). -/
theorem withErasures_congr {x y : List Byte} {erased : List Nat} (hlen : x.length = y.length)
    (hxy : ∀ p, p ∉ erased → x[p]? = y[p]?) : withErasures x erased = withErasures y erased := by
  refine List.ext_getElem? fun p => ?_
  rw [withErasures_getElem?, withErasures_getElem?]
  by_cases hp : p ∈ erased
  · by_cases hx : p < x.length
    · rw [List.getElem?_eq_getElem hx, List.getElem?_eq_getElem (hlen ▸ hx)]
      simp [hp]
    · rw [List.getElem?_eq_none (by omega), List.getElem?_eq_none (by omega)]
  · rw [hxy p hp]

/-! ### The blocks and their messages (R332, R335) -/

/-- The messages decoded from given blocks, each with the erasures its positions of the mask flag (R332). -/
def messagesOf (P : Params) (n k : Nat) (mask : List Bool) (blocks : List (List Byte)) :
    List (Option (List Byte)) :=
  blocks.mapIdx fun j x => rsDecode P n k x (erasedAt n mask j)

/-- `rsMessages` is the messages of the blocks the decoder reads (R332). -/
theorem rsMessages_eq (P : Params) (n k : Nat) (bs : List Byte) (mask : List Bool) :
    rsMessages P n k bs mask = messagesOf P n k mask (rsBlocks P n bs) := rfl

@[simp] theorem messagesOf_length (P : Params) (n k : Nat) (mask : List Bool) (blocks : List (List Byte)) :
    (messagesOf P n k mask blocks).length = blocks.length := List.length_mapIdx

/-- Every block gives `k` bytes of output, decoded or zero (R332). -/
theorem rsOutput_length {k : Nat} {ms : List (Option (List Byte))}
    (h : ∀ m, some m ∈ ms → m.length = k) : (rsOutput k ms).length = k * ms.length := by
  induction ms with
  | nil => rfl
  | cons x ms ih =>
    have hx : (x.getD (List.replicate k 0)).length = k := by
      cases x with
      | none => exact List.length_replicate
      | some m => exact h m List.mem_cons_self
    have hms := ih fun m hm => h m (List.mem_cons_of_mem _ hm)
    rw [rsOutput] at hms ⊢
    rw [List.flatMap_cons, List.length_append, hx, hms, List.length_cons, Nat.mul_succ, Nat.add_comm]

/-- The output has `k` bytes for each block read (R332). -/
theorem rsOutput_messagesOf_length (P : Params) (n k : Nat) (mask : List Bool) (blocks : List (List Byte)) :
    (rsOutput k (messagesOf P n k mask blocks)).length = k * blocks.length := by
  rw [rsOutput_length fun m hm => ?_, messagesOf_length]
  obtain ⟨j, hj, hm⟩ := List.mem_mapIdx.1 hm
  exact rsDecode_length hm

/-- The whole blocks of a code: those a decoder reads before the tail (R332). -/
def wholeBlocks (n : Nat) (bs : List Byte) : List (List Byte) :=
  (List.range (bs.length / n)).map (blockAt bs n)

/-- The bytes after the whole blocks (R335). -/
def shortBlock (n : Nat) (bs : List Byte) : List Byte := bs.drop (bs.length / n * n)

/-- A code of whole blocks has no tail (R335). -/
theorem rsBlocks_of_whole {P : Params} {n : Nat} {bs : List Byte} (h : bs.length % n = 0) :
    rsBlocks P n bs = wholeBlocks n bs := by
  simp [rsBlocks, tailBlocks, h, wholeBlocks]

/-- A short last block is zero-padded under `PadZero` (R335). -/
theorem rsBlocks_of_padZero {P : Params} {n : Nat} {bs : List Byte} (h : bs.length % n ≠ 0)
    (hp : P.rsTailPolicy = .padZero) :
    rsBlocks P n bs = wholeBlocks n bs ++ [padBytes n (shortBlock n bs)] := by
  simp [rsBlocks, tailBlocks, h, hp, wholeBlocks, shortBlock]

/-- A short last block is dropped under `Drop` (R335). -/
theorem rsBlocks_of_drop {P : Params} {n : Nat} {bs : List Byte} (h : bs.length % n ≠ 0)
    (hp : P.rsTailPolicy = .drop) : rsBlocks P n bs = wholeBlocks n bs := by
  simp [rsBlocks, tailBlocks, h, hp, wholeBlocks]

/-! ### The command (R341) -/

/-- An optional mask operand passes the operand check as what it stands for (R135). -/
theorem optional_of_optionalMask {s : State} {d : Handle} {mk : Option (List Bool)}
    (h : OptionalMask s d mk) : optional s d Obj.asMask = .ok mk := by
  rcases h with ⟨rfl, rfl⟩ | ⟨xs, rfl, hxs⟩
  · exact optional_zero
  · exact optional_of_holds hxs rfl

/-- What a Reed-Solomon decode comes to, by its blocks' messages (R341). -/
def rsDecoded (k : Nat) (ms : List (Option (List Byte))) : Decoded :=
  ⟨rsOutput k ms, rsUncorrectable ms, ms.length, none⟩

/-- The state CODEC_DEC of a Reed-Solomon codec ends in when it decodes the given blocks (R332, R341). -/
def afterDecoding (P : Params) (i : Instr) (s : State) (a : Handle) (n k : Nat) (mask : List Bool)
    (blocks : List (List Byte)) : State :=
  let ms := messagesOf P n k mask blocks
  let t := ((s.putObj a (.bytes (rsOutput k ms))).setRNat 0 (rsUncorrectable ms)).setRNat 1 blocks.length
  if P.maxElems < k * blocks.length then afterFailure i s .capacity
  else if rsUncorrectable ms = 0 then afterOk t else afterStatus (headerWord i) t 1

/-- Under `Fault` a Reed-Solomon codec refuses a short last block (R335). -/
theorem decodeBytes_rs_refused {P : Params} {cd : Codec} {bs : List Byte} {mk : Option (List Bool)}
    (hrs : cd.ckind = .rs) (h : bs.length % (cd.blockLength / 8) ≠ 0) (hp : P.rsTailPolicy = .fault) :
    decodeBytes P cd bs mk = .error .invalidValue := by
  have hreq : (decide (bs.length % (cd.blockLength / 8) = 0) || decide (P.rsTailPolicy ≠ .fault)) = false := by
    simp [h, hp]
  simp only [decodeBytes, hrs, require_not hreq, error_bind]

/-- Every other code it decodes, block by block, and it writes no mask (R332, R341). -/
theorem decodeBytes_rs_decoded {P : Params} {cd : Codec} {bs : List Byte} {mk : Option (List Bool)}
    (hrs : cd.ckind = .rs) (h : bs.length % (cd.blockLength / 8) = 0 ∨ P.rsTailPolicy ≠ .fault) :
    decodeBytes P cd bs mk =
      .ok (rsDecoded (cd.messageLength / 8)
        (messagesOf P (cd.blockLength / 8) (cd.messageLength / 8) (mk.getD [])
          (rsBlocks P (cd.blockLength / 8) bs))) := by
  have hreq : (decide (bs.length % (cd.blockLength / 8) = 0) || decide (P.rsTailPolicy ≠ .fault)) = true := by
    simpa using h
  simp only [decodeBytes, hrs, require_of hreq, ok_bind, rsMessages_eq]
  rfl

/-- Once its operands have passed, CODEC_DEC decodes, checks the capacity and writes (R341). -/
theorem codecDecRule_of_operands (P : Params) {a b c d : Handle} {cd : Codec} {bs : List Byte}
    {mk : Option (List Bool)} {s : State} (ha : Vacant s a) (hb : Holds s b (.codec cd))
    (hc : Holds s c (.bytes bs)) (hd : OptionalMask s d mk) :
    codecDecRule P a b c d s = (do
      let r ← decodeBytes P cd bs mk
      requireElems P r.out.length
      return (if 0 < r.count then .decodeRecovered else .ok,
        (((putMask s d r.mask).putObj a (.bytes r.out)).setRNat 0 r.count).setRNat 1 r.units)) := by
  have hcodec : existing s b Obj.asCodec = .ok cd := existing_of_holds hb rfl
  have hbytes : existing s c Obj.asBytes = .ok bs := existing_of_holds hc rfl
  simp only [codecDecRule, fresh_of_vacant ha, hcodec, hbytes, optional_of_optionalMask hd, ok_bind]

section

variable {a b c d : Handle} {cd : Codec} {bs : List Byte} {mk : Option (List Bool)} {s : State}
  (ha : Vacant s a) (hb : Holds s b (.codec cd)) (hrs : cd.ckind = .rs) (hc : Holds s c (.bytes bs))
  (hd : OptionalMask s d mk)
include ha hb hrs hc hd

/-- CODEC_DEC refuses a short last block under `Fault` (R335). -/
theorem exec_codecDec_refused (h : bs.length % (cd.blockLength / 8) ≠ 0)
    (hp : Config.params.rsTailPolicy = .fault) :
    exec (.codecDec a b c d) s = .next (afterFailure (.codecDec a b c d) s .invalidValue) := by
  refine exec_afterFailure ?_
  rw [commandRule, codecDecRule_of_operands _ ha hb hc hd, decodeBytes_rs_refused hrs h hp, error_bind]

/-- CODEC_DEC of a Reed-Solomon codec decodes the blocks the decoder reads (R332, R341). -/
theorem exec_codecDec_decoded
    (h : bs.length % (cd.blockLength / 8) = 0 ∨ Config.params.rsTailPolicy ≠ .fault) :
    exec (.codecDec a b c d) s =
      .next (afterDecoding Config.params (.codecDec a b c d) s a (cd.blockLength / 8) (cd.messageLength / 8)
        (mk.getD []) (rsBlocks Config.params (cd.blockLength / 8) bs)) := by
  generalize hblocks : rsBlocks Config.params (cd.blockLength / 8) bs = blocks
  generalize hms : messagesOf Config.params (cd.blockLength / 8) (cd.messageLength / 8) (mk.getD []) blocks = ms
  have hdec := decodeBytes_rs_decoded (mk := mk) hrs h
  rw [hblocks, hms] at hdec
  have hunits : ms.length = blocks.length := by rw [← hms, messagesOf_length]
  have hout : (rsOutput (cd.messageLength / 8) ms).length = cd.messageLength / 8 * blocks.length := by
    rw [← hms, rsOutput_messagesOf_length]
  have hrule : commandRule Config.params (.codecDec a b c d) s = (do
      requireElems Config.params (cd.messageLength / 8 * blocks.length)
      return (if 0 < rsUncorrectable ms then .decodeRecovered else .ok,
        ((s.putObj a (.bytes (rsOutput (cd.messageLength / 8) ms))).setRNat 0 (rsUncorrectable ms)).setRNat 1
          blocks.length)) := by
    simp only [commandRule, codecDecRule_of_operands _ ha hb hc hd, hdec, ok_bind, rsDecoded, hunits, hout,
      putMask]
  rw [afterDecoding, hms]
  split
  case isTrue hbig =>
    rw [requireElems_not hbig] at hrule
    exact exec_afterFailure hrule
  case isFalse hfits =>
    rw [requireElems_of (Nat.le_of_not_lt hfits), ok_bind] at hrule
    split
    case isTrue hnone =>
      rw [if_neg (by omega)] at hrule
      exact exec_afterOk hrule
    case isFalse hsome =>
      rw [if_pos (by omega)] at hrule
      exact exec_afterStatus (c := .decodeRecovered) nofun hrule

end

/-- Settles O35: the tail policy decides which blocks are decoded, and the decoder port is given nothing at an
erased position. -/
theorem reedSolomonDecoding : Obligations.ReedSolomonDecoding := by
  refine ⟨?_, ?_⟩
  · intro a b c d cd bs mk s ha hb hrs hc hd P n k i decoded full tail
    refine ⟨fun hwhole => ?_, fun hshort => ?_⟩
    · have hrun := exec_codecDec_decoded ha hb hrs hc hd (.inl hwhole)
      rw [rsBlocks_of_whole hwhole] at hrun
      exact hrun
    · split
      next hp =>
        have hrun := exec_codecDec_decoded ha hb hrs hc hd (.inr (hp ▸ nofun))
        rw [rsBlocks_of_padZero hshort hp] at hrun
        exact hrun
      next hp =>
        have hrun := exec_codecDec_decoded ha hb hrs hc hd (.inr (hp ▸ nofun))
        rw [rsBlocks_of_drop hshort hp] at hrun
        exact hrun
      next hp => exact exec_codecDec_refused ha hb hrs hc hd hshort hp
  · intro P n k x y erased hlen hxy
    exact ⟨by rw [rsDecode, rsDecode, withErasures_congr hlen hxy], fun m hm => rsDecode_length hm⟩

end Sys2Proof.Machine
end

section
/-! PROOFS. What a command leaves unchanged (R53 to R61, R64): its rule keeps everything but what the tables
`writesI` to `writesCfg` and `namedHandles` name, and its end records the three status registers. -/

namespace Sys2Proof.Machine

/-! ### The configuration registers (R57) -/

/-- An `Int` register takes any value, and no other register changes (R205). -/
theorem Cfg.get_of_setInt? {g g' : Cfg} {c : CfgReg} {v : Bits64} (h : g.setInt? c v = some g') (q : CfgReg) :
    g'.get q = if q = c then .int v else g.get q := by
  cases c with
  | bps | srate | sps | expf | sepi | bwdiv | dsps =>
    cases h
    cases q <;> rfl
  | carrier | fmin | fmax | gthresh => cases h

/-- A `Num` register takes any value, and no other register changes (R206). -/
theorem Cfg.get_of_setNum? {g g' : Cfg} {c : CfgReg} {x : Number} (h : g.setNum? c x = some g') (q : CfgReg) :
    g'.get q = if q = c then .num x else g.get q := by
  cases c with
  | bps | srate | sps | expf | sepi | bwdiv | dsps => cases h
  | carrier | fmin | fmax | gthresh =>
    cases h
    cases q <;> rfl

/-- The `Int` registers are those an integer can be written to (R57, R150). -/
theorem Cfg.isSome_setInt? (g : Cfg) (c : CfgReg) (v : Bits64) : (g.setInt? c v).isSome = c.isInt := by
  cases c <;> rfl

/-- The `Num` registers are those a number can be written to (R57, R150). -/
theorem Cfg.isSome_setNum? (g : Cfg) (c : CfgReg) (x : Number) : (g.setNum? c x).isSome = !c.isInt := by
  cases c <;> rfl

/-! ### The frame of a command -/

/-- `t` differs from `s` at most where command `i` may write: in the registers and slots its rule names, in the
count of draws, in `STATUS`, and in `STICKY` for CLRERR alone. -/
structure Frame (i : Instr) (s t : State) : Prop where
  iregs : ∀ r, writesI i ≠ some r → t.getI r = s.getI r
  fregs : ∀ r, writesF i ≠ some r → t.getF r = s.getF r
  rregs : ∀ r, r ∉ writesR i → t.getR r = s.getR r
  rfregs : ∀ r, r ∉ writesRF i → t.getRF r = s.getRF r
  cfg : ∀ c, writesCfg i ≠ some c → t.cfg.get c = s.cfg.get c
  slots : ∀ h, h ∉ namedHandles s i → t.obj h = s.obj h
  sticky : i ≠ .clrerr → t.sticky = s.sticky
  errcmd : t.errcmd = s.errcmd
  dec : t.dec = s.dec
  pending : t.pending = s.pending
  replies : t.replies = s.replies

namespace Frame

variable {i : Instr} {s t : State}

theorem refl : Frame i s s :=
  ⟨fun _ _ => rfl, fun _ _ => rfl, fun _ _ => rfl, fun _ _ => rfl, fun _ _ => rfl, fun _ _ => rfl,
    fun _ => rfl, rfl, rfl, rfl, rfl⟩

theorem setI {r : IReg} {v : Bits64} (w : Frame i s t) (hr : writesI i = some r := by rfl) :
    Frame i s (t.setI r v) :=
  { w with
    iregs q hq := by
      have hne : r ≠ q := fun e => hq (e ▸ hr)
      rw [State.getI_setI, if_neg hne, w.iregs q hq] }

theorem setF {r : FReg} {v : Number} (w : Frame i s t) (hr : writesF i = some r := by rfl) :
    Frame i s (t.setF r v) :=
  { w with
    fregs q hq := by
      have hne : r ≠ q := fun e => hq (e ▸ hr)
      rw [State.getF_setF, if_neg hne, w.fregs q hq] }

theorem setR {r : RReg} {v : Bits64} (w : Frame i s t) (hr : r ∈ writesR i := by simp [writesR]) :
    Frame i s (t.setR r v) :=
  { w with
    rregs q hq := by
      have hne : r ≠ q := fun e => hq (e ▸ hr)
      rw [State.getR_setR, if_neg hne, w.rregs q hq] }

theorem setRNat {r : RReg} {n : Nat} (w : Frame i s t) (hr : r ∈ writesR i := by simp [writesR]) :
    Frame i s (t.setRNat r n) := w.setR hr

theorem setRInt {r : RReg} {v : Int} (w : Frame i s t) (hr : r ∈ writesR i := by simp [writesR]) :
    Frame i s (t.setRInt r v) := w.setR hr

theorem setRF {r : RReg} {v : Number} (w : Frame i s t) (hr : r ∈ writesRF i := by simp [writesRF]) :
    Frame i s (t.setRF r v) :=
  { w with
    rfregs q hq := by
      have hne : r ≠ q := fun e => hq (e ▸ hr)
      rw [State.getRF_setRF, if_neg hne, w.rfregs q hq] }

theorem setRFs {x0 x1 x2 x3 : Number} (w : Frame i s t)
    (hr : ∀ r : RReg, r ∈ writesRF i := by simp [writesRF, Fin.forall_fin_succ]) :
    Frame i s (t.setRFs x0 x1 x2 x3) :=
  (((w.setRF (hr 0)).setRF (hr 1)).setRF (hr 2)).setRF (hr 3)

theorem setCfg {c : CfgReg} {g : Cfg} (w : Frame i s t) (hc : writesCfg i = some c)
    (hg : ∀ q, q ≠ c → g.get q = t.cfg.get q) : Frame i s { t with cfg := g } :=
  { w with cfg q hq := (hg q fun e => hq (e ▸ hc)).trans (w.cfg q hq) }

theorem putObj {h : Handle} {o : Obj} (w : Frame i s t)
    (hh : h ∈ namedHandles s i := by simp [namedHandles, handleOperands]) : Frame i s (t.putObj h o) :=
  { w with
    slots g hg := by
      have hne : h ≠ g := fun e => hg (e ▸ hh)
      rw [State.obj_putObj, if_neg hne, w.slots g hg] }

theorem freeObj {h : Handle} (w : Frame i s t)
    (hh : h ∈ namedHandles s i := by simp [namedHandles, handleOperands]) : Frame i s (t.freeObj h) :=
  { w with
    slots g hg := by
      have hne : h ≠ g := fun e => hg (e ▸ hh)
      rw [State.obj_freeObj, if_neg hne, w.slots g hg] }

theorem putMask {d : Handle} {mask : Option (List Bool)} (w : Frame i s t)
    (hd : d ∈ namedHandles s i := by simp [namedHandles, handleOperands]) : Frame i s (putMask t d mask) := by
  cases mask with
  | none => exact w
  | some mk => exact w.putObj hd

/-- The draws taken are not block state (R13). -/
theorem takeDraws {n : Nat} (w : Frame i s t) : Frame i s { t with hopDraws := n } := { w with }

/-- CLRERR alone writes `STICKY` by its rule (R208). -/
theorem clearSticky (w : Frame .clrerr s t) : Frame .clrerr s { t with sticky := 0 } :=
  { w with sticky := fun h => absurd rfl h }

end Frame

/-! ### Every command's rule keeps its frame -/

/-- What a rule completes with differs from `s` only where command `i` may write. -/
abbrev KeepsFrame (i : Instr) (s : State) (r : Result) : Prop := Yields (fun p => Frame i s p.2) r

section

variable {P : Params} {s : State}

theorem cfgWriRule_frame (a : CfgReg) (b : IReg) : KeepsFrame (.cfgWri a b) s (cfgWriRule a b s) := by
  unfold cfgWriRule
  split
  · next g hg =>
    refine .ok (.setCfg .refl rfl fun q hq => ?_)
    rw [Cfg.get_of_setInt? hg, if_neg hq]
  · exact .error

theorem cfgWrfRule_frame (a : CfgReg) (b : FReg) : KeepsFrame (.cfgWrf a b) s (cfgWrfRule a b s) := by
  unfold cfgWrfRule
  split
  · next g hg =>
    refine .ok (.setCfg .refl rfl fun q hq => ?_)
    rw [Cfg.get_of_setNum? hg, if_neg hq]
  · exact .error

/-- An `Int` register is read into `R0`, a `Num` register into `RF0` (R207). -/
theorem cfgRdRule_frame (a : CfgReg) : KeepsFrame (.cfgRd a) s (cfgRdRule a s) := by
  cases a with
  | bps | srate | sps | expf | sepi | bwdiv | dsps => exact .ok (.setR .refl (.head _))
  | carrier | fmin | fmax | gthresh => exact .ok (.setRF .refl (.head _))

theorem bufNewRule_frame (a : Handle) (k : Kind) : KeepsFrame (.bufNew a k) s (bufNewRule a k s) := by
  unfold bufNewRule
  split
  · exact .error
  · exact .bind fun _ _ => .ok (.putObj .refl)

theorem bufPushiRule_frame (a : Handle) (b : IReg) :
    KeepsFrame (.bufPushi a b) s (bufPushiRule P a b s) := by
  refine .bind fun o _ => ?_
  split
  · exact .error
  · exact .bind fun _ _ => .ok (.putObj .refl)

theorem bufGetiRule_frame (a : Handle) (b : IReg) : KeepsFrame (.bufGeti a b) s (bufGetiRule a b s) := by
  refine .bind fun o _ => ?_
  split
  · exact .error
  · exact .ok (.setR .refl)

theorem bufGetfRule_frame (a : Handle) (b : IReg) : KeepsFrame (.bufGetf a b) s (bufGetfRule a b s) := by
  refine .bind fun xs _ => ?_
  split
  · exact .error
  · exact .ok (.setRF .refl)

theorem chGetRule_frame (a b : Handle) (c : IReg) : KeepsFrame (.chGet a b c) s (chGetRule P a b c s) := by
  refine .bind fun _ _ => .bind fun chs _ => ?_
  split
  · exact .error
  · exact .bind fun _ _ => .ok (.putObj .refl)

/-- ST_RDU and ST_RDS alike (R264, R265). -/
theorem readIntegerRule_frame {i : Instr} (extend : Nat → Nat → Bits64) (a : Handle) (b c : IReg)
    (hI : writesI i = some b) (hR : 0 ∈ writesR i) (ha : a ∈ namedHandles s i) :
    KeepsFrame i s (readIntegerRule extend a b c s) :=
  .bind fun _ _ => .bind fun _ _ => .bind fun _ _ => .bind fun _ _ =>
    .pure (.putObj (.setRNat (.setI .refl hI) hR) ha)

theorem modInfoRule_frame (a b : Handle) : KeepsFrame (.modInfo a b) s (modInfoRule P a b s) := by
  refine .bind fun _ _ => .bind fun m _ => .ite (fun _ => .ok ?_) fun _ => .bind fun _ _ => .ok (.putObj ?_)
  all_goals exact .setRFs (.setRNat (.setR (.setRNat .refl)))

theorem demRunRule_frame (a b c : Handle) : KeepsFrame (.demRun a b c) s (demRunRule P a b c s) := by
  refine .bind fun _ _ => .bind fun d _ => .bind fun xs _ => ?_
  split <;> exact .bind fun _ _ => .ok (.setRNat (.setRNat (.putObj .refl)))

theorem demSoftRule_frame (a b c : Handle) : KeepsFrame (.demSoft a b c) s (demSoftRule P a b c s) := by
  refine .bind fun _ _ => .bind fun d _ => .bind fun xs _ => ?_
  split
  · exact .error
  · exact .bind fun _ _ => .ok (.setRNat (.putObj .refl))

theorem syncLocateRule_frame (a b : Handle) : KeepsFrame (.syncLocate a b) s (syncLocateRule a b s) := by
  refine .bind fun r _ => .bind fun sent _ => ?_
  split
  · exact .error
  · exact .ok (.setRInt (.setRInt (.setRNat .refl)))

theorem syncMultiRule_frame (a b : Handle) : KeepsFrame (.syncMulti a b) s (syncMultiRule a b s) := by
  refine .bind fun chs _ => .bind fun sent _ => ?_
  dsimp only
  split
  · exact .error
  · exact .ok (.setRNat (.setRNat (.setRNat .refl)))

/-- Every command's rule but RESET's writes only what the tables name (R53 to R57, R64). -/
theorem commandRule_frame {i : Instr} (hi : i ≠ .reset) : KeepsFrame i s (commandRule P i s) := by
  cases i with
  | reset => exact absurd rfl hi
  | nop => exact .ok .refl
  | seti | movr | addi => exact .ok (.setI .refl)
  | setf | movrf => exact .ok (.setF .refl)
  | cfgWri a b => exact cfgWriRule_frame a b
  | cfgWrf a b => exact cfgWrfRule_frame a b
  | cfgRd a => exact cfgRdRule_frame a
  | clrerr => exact .ok (.clearSticky .refl)
  | bufNew a k => exact bufNewRule_frame a k
  | bufFree => exact .bind fun _ _ => .ok (.freeObj .refl)
  | bufLen => exact .bind fun _ _ => .ok (.setR (.setRNat .refl))
  | bufPushi a b => exact bufPushiRule_frame a b
  | bufPushf => exact .bind fun _ _ => .bind fun _ _ => .ok (.putObj .refl)
  | bufGeti a b => exact bufGetiRule_frame a b
  | bufGetf a b => exact bufGetfRule_frame a b
  | bufSlice =>
    exact .bind fun _ _ => .bind fun _ _ => .bind fun _ _ => .bind fun _ _ => .ok (.putObj .refl)
  | bufConcat => exact .bind fun _ _ => .bind fun _ _ => .bind fun _ _ => .ok (.putObj .refl)
  | chGet a b c => exact chGetRule_frame a b c
  | pkNew | codecMan => exact .bind fun _ _ => .ok (.putObj .refl)
  | pkWrbits =>
    exact .bind fun _ _ => .bind fun _ _ => .bind fun _ _ => .bind fun _ _ => .ok (.putObj .refl)
  | pkWrbytes | pkFlush | trkNew | codecRs =>
    exact .bind fun _ _ => .bind fun _ _ => .bind fun _ _ => .ok (.putObj .refl)
  | stNew => exact .bind fun _ _ => .bind fun _ _ => .ok (.putObj .refl)
  | stRdbits =>
    exact .bind fun _ _ => .bind fun _ _ => .bind fun _ _ => .bind fun _ _ => .bind fun _ _ =>
      .bind fun _ _ => .pure (.setRNat (.putObj (.putObj .refl)))
  | stRdu a b c => exact readIntegerRule_frame (fun _ v => BitVec.ofNat 64 v) a b c rfl (.head _) (.head _)
  | stRds a b c => exact readIntegerRule_frame signExtendNat a b c rfl (.head _) (.head _)
  | stPeek =>
    exact .bind fun _ _ => .bind fun _ _ => .bind fun _ _ => .bind fun _ _ =>
      .ok (.putObj (.setRNat (.setRNat .refl)))
  | stRemain =>
    exact .bind fun _ _ => .bind fun _ _ =>
      .ite (fun _ => .bind fun _ _ => .ok (.setR (.setR .refl))) fun _ => .ok (.setR (.setRNat .refl))
  | trkNext =>
    exact .bind fun _ _ => .bind fun _ _ =>
      .ite (fun _ => .ok (.setR (.putObj (.setI .refl)))) fun _ => .pure (.setR (.putObj .refl))
  | trkTolist =>
    exact .bind fun _ _ => .bind fun _ _ => .bind fun _ _ => .bind fun _ _ => .ok (.setRNat (.putObj .refl))
  | codecEnc | demAssemble =>
    exact .bind fun _ _ => .bind fun _ _ => .bind fun _ _ => .bind fun _ _ => .ok (.setRNat (.putObj .refl))
  | codecDec =>
    exact .bind fun _ _ => .bind fun _ _ => .bind fun _ _ => .bind fun _ _ => .bind fun _ _ =>
      .bind fun _ _ => .pure (.setRNat (.setRNat (.putObj (.putMask .refl))))
  | codecInfo => exact .bind fun _ _ => .ok (.setR (.setRNat (.setRNat .refl)))
  | carriers =>
    exact .bind fun _ _ => .bind fun _ _ => .bind fun _ _ => .bind fun _ _ => .bind fun _ _ =>
      .ok (.setRNat (.putObj .refl))
  | modNew | demNew => exact .bind fun _ _ => .bind fun _ _ => .ok (.setRNat (.putObj .refl))
  | modRun =>
    exact .bind fun _ _ => .bind fun _ _ => .bind fun _ _ => .bind fun _ _ => .bind fun _ _ =>
      .bind fun _ _ => .ok (.setRNat (.putObj (.takeDraws .refl)))
  | modInfo a b => exact modInfoRule_frame a b
  | demRun a b c => exact demRunRule_frame a b c
  | demSoft a b c => exact demSoftRule_frame a b c
  | demInfo => exact .bind fun _ _ => .ok (.setRFs (.setRNat (.setRNat (.setR (.setRNat .refl)))))
  | trGardner =>
    exact .bind fun _ _ => .bind fun _ _ => .bind fun _ _ => .bind fun _ _ =>
      .ok (.setRNat (.setRNat (.setRInt (.putObj .refl))))
  | trDecide =>
    exact .bind fun _ _ => .bind fun _ _ => .bind fun _ _ => .bind fun _ _ => .bind fun _ _ =>
      .ok (.setRNat (.putObj .refl))
  | syncLocate a b => exact syncLocateRule_frame a b
  | syncMulti a b => exact syncMultiRule_frame a b

end

/-- Every command but RESET ends by recording a status code, in a state that differs from the one before it only
where the command may write; after a failing status that is the state before it (R31, R604, R605). -/
theorem exec_frame {i : Instr} {s t : State} (hi : i ≠ .reset) (h : exec i s = .next t) :
    ∃ s' code, Frame i s s' ∧ code ≤ 13 ∧ t = recordStatus s' (headerWord i) code := by
  rcases exec_cases h with ⟨e, -, rfl⟩ | ⟨c, s', hr, rfl⟩
  · exact ⟨s, e.code, .refl, e.code_le, rfl⟩
  · exact ⟨s', c.code, commandRule_frame hi _ hr, c.code_le, rfl⟩

/-- `STATUS` is 0 exactly after the code 0 (R58). -/
theorem ofNat_code_eq_zero {code : Nat} (hcode : code ≤ 13) : BitVec.ofNat 64 code = 0 ↔ code = 0 := by
  rw [← BitVec.toNat_inj, toNat_ofNat_code hcode]
  rfl

/-- Settles O11: the rule keeps `STICKY` and `ERRCMD`, and the command's end records its code in them. -/
theorem statusRegistersRecord : Obligations.StatusRegistersRecord := by
  intro i s t hclr hreset h
  obtain ⟨s', code, hframe, hcode, rfl⟩ := exec_frame hreset h
  simp only [State.recordStatus_status, State.recordStatus_sticky, State.recordStatus_errcmd,
    ofNat_code_eq_zero hcode, toNat_ofNat_code hcode, ← hframe.sticky hclr, ← hframe.errcmd]
  exact ⟨hcode, rfl, rfl⟩

/-- Settles O14: a command writes the registers its frame names, and its end only the status registers. -/
theorem registersWrittenWhereNamed : Obligations.RegistersWrittenWhereNamed := by
  intro i s t hreset h
  obtain ⟨s', code, hframe, -, rfl⟩ := exec_frame hreset h
  exact ⟨hframe.iregs, hframe.fregs, hframe.rregs, hframe.rfregs, hframe.cfg, hframe.dec, hframe.pending,
    hframe.replies⟩

/-- Settles O15: a command writes the slots its frame names, and its end none. -/
theorem slotsChangedWhereNamed : Obligations.SlotsChangedWhereNamed := by
  intro i s t h hreset hexec hh
  obtain ⟨s', code, hframe, -, rfl⟩ := exec_frame hreset hexec
  exact hframe.slots h hh

/-- Settles O19: a write of a register's own type succeeds, and `Cfg.get` after it tells the registers apart. -/
theorem configCommands : Obligations.ConfigCommands := by
  refine fun s => ⟨fun a b ha => ?_, fun a b ha => ?_, fun a v hv => ?_, fun a x hx => ?_⟩
  · obtain ⟨g, hg⟩ := Option.isSome_iff_exists.1 ((s.cfg.isSome_setInt? a (s.getI b)).trans ha)
    refine ⟨g, exec_afterOk (t := { s with cfg := g }) ?_, ?_, fun c hc => ?_⟩
    · simp only [commandRule, cfgWriRule, hg, done]
    · rw [Cfg.get_of_setInt? hg, if_pos rfl]
    · rw [Cfg.get_of_setInt? hg, if_neg hc]
  · obtain ⟨g, hg⟩ := Option.isSome_iff_exists.1
      ((s.cfg.isSome_setNum? a (s.getF b)).trans (by rw [ha, Bool.not_false]))
    refine ⟨g, exec_afterOk (t := { s with cfg := g }) ?_, ?_, fun c hc => ?_⟩
    · simp only [commandRule, cfgWrfRule, hg, done]
    · rw [Cfg.get_of_setNum? hg, if_pos rfl]
    · rw [Cfg.get_of_setNum? hg, if_neg hc]
  · exact exec_afterOk (by simp only [commandRule, cfgRdRule, hv, done])
  · exact exec_afterOk (by simp only [commandRule, cfgRdRule, hx, done])

end Sys2Proof.Machine
end

section
/-! PROOFS. The command port (R52, R145, R148, R152), and the invariant right after reset (R63, R700). -/

namespace Sys2Proof.Machine

/-! ### What a step that issues a word does, case by case (R52, R104, R152) -/

section

variable {w h : Word} {got ext : List Word} {rest : List HostOp} {s : State}

/-- A header word of a longer command starts collecting. -/
theorem step_header (hp : s.pending = .issue w :: rest) (hdec : s.dec = .idle) (hlen : commandLength w ≠ 1) :
    step s = .next { s with pending := rest, dec := .collecting w (commandLength w - 1) [] } := by
  simp only [step_of_pending hp, hostStep, issueWord, hdec, if_neg hlen]

/-- A word that is not its command's last is appended. -/
theorem step_collect {need : Nat} (hp : s.pending = .issue w :: rest) (hdec : s.dec = .collecting h need got)
    (hneed : need ≠ 1) :
    step s = .next { s with pending := rest, dec := .collecting h (need - 1) (got ++ [w]) } := by
  simp only [step_of_pending hp, hostStep, issueWord, hdec, if_neg hneed]

/-- A one-word command is run at once. -/
theorem step_single (hp : s.pending = .issue w :: rest) (hdec : s.dec = .idle) (hlen : commandLength w = 1) :
    step s = executeWords w [] { s with pending := rest } := by
  simp only [step_of_pending hp, hostStep, issueWord, hdec, if_pos hlen]

/-- The last word of a longer command runs it, with the decoder back in `Idle`. -/
theorem step_last (hp : s.pending = .issue w :: rest) (hdec : s.dec = .collecting h 1 got) :
    step s = executeWords h (got ++ [w]) { s with pending := rest, dec := .idle } := by
  simp only [step_of_pending hp, hostStep, issueWord, hdec, if_true]

/-- Words that are no legal command end with `ILLEGAL_COMMAND` and have no other effect (R145). -/
theorem executeWords_illegal {r : Reject} (hdec : decode (h :: ext) = .error r) :
    executeWords h ext s = .next (afterStatus h s 11) := by
  simp only [executeWords, hdec, raiseFailure_eq]
  rfl

/-- Words that are a legal command run it (R152). -/
theorem executeWords_legal {i : Instr} (hdec : decode (h :: ext) = .ok i) : executeWords h ext s = exec i s := by
  simp only [executeWords, hdec]

/-- Only a list as long as its opcode says is a command (R133). -/
theorem commandLength_of_decode {i : Instr} (hdec : decode (h :: ext) = .ok i) :
    commandLength h = ext.length + 1 := by
  by_contra hlen
  rw [decode, if_neg (Ne.symm hlen)] at hdec
  cases hdec

end

/-- Settles O5: the decoder's state and the command's length decide which of the four cases of a step it is. -/
theorem commandPortWords : Obligations.CommandPortWords := by
  refine ⟨fun w rest s hp => ⟨fun hdec hlen => ?_, fun h need got hdec hneed => ?_⟩,
    fun w rest r s hp => ⟨fun hdec hlen hrej => ?_, fun h got hdec hrej => ?_⟩⟩
  · exact step_header hp hdec hlen.ne'
  · exact step_collect hp hdec hneed.ne'
  · rw [step_single hp hdec hlen, executeWords_illegal hrej]
  · rw [step_last hp hdec, executeWords_illegal hrej]

/-- Settles O6: the last word runs the command that the words decode to. -/
theorem stepRunsDecodedCommand : Obligations.StepRunsDecodedCommand := by
  refine fun w rest i s hp => ⟨fun hdec hok => ?_, fun h got hdec hok => ?_⟩
  · rw [step_single hp hdec (commandLength_of_decode hok), executeWords_legal hok]
  · rw [step_last hp hdec, executeWords_legal hok]

/-- Settles O13: the state after reset is what a reset of the block leaves, and that meets the invariant. -/
theorem invariantAtReset : Obligations.InvariantAtReset := resetBlock_inv Config.params State.reset

end Sys2Proof.Machine
end

section
/-! PROOFS. The host's read port (R104, R105): which register each range of addresses gives. -/

namespace Sys2Proof

/-! ### The numbers of the configuration registers (R57) -/

/-- A configuration register's number names that register (R57). -/
@[simp] theorem CfgReg.ofCode?_code (c : CfgReg) : CfgReg.ofCode? c.code = some c := by
  cases c <;> rfl

theorem CfgReg.code_le (c : CfgReg) : c.code.toNat ≤ 10 := by
  cases c <;> decide

/-- The numbers above 10 name no configuration register (R57, R150). -/
theorem CfgReg.ofCode?_eq_none {v : Byte} (h : 10 < v.toNat) : CfgReg.ofCode? v = none := by
  unfold CfgReg.ofCode?
  split
  any_goals omega
  rfl

end Sys2Proof

namespace Sys2Proof.Machine

/-! ### What each address gives (R105) -/

section

variable {P : Params} {s : State} {a : BitVec 12}

theorem readPort_rregs {r : RReg} (ha : a.toNat = 0x010 + r.val) : readPort P s a = s.getR r := by
  have hr := r.isLt
  simp (disch := omega) only [readPort, ha, Bool.and_eq_true, decide_eq_true_eq, if_pos, if_neg,
    Nat.add_sub_cancel_left, Fin.ofNat_val_eq_self]

theorem readPort_rfregs {r : RReg} (ha : a.toNat = 0x018 + r.val) :
    readPort P s a = P.num.toBinary64 (s.getRF r) := by
  have hr := r.isLt
  simp (disch := omega) only [readPort, ha, Bool.and_eq_true, decide_eq_true_eq, if_pos, if_neg,
    Nat.add_sub_cancel_left, Fin.ofNat_val_eq_self]

theorem readPort_iregs {r : IReg} (ha : a.toNat = 0x020 + r.val) : readPort P s a = s.getI r := by
  have hr := r.isLt
  simp (disch := omega) only [readPort, ha, Bool.and_eq_true, decide_eq_true_eq, if_pos, if_neg,
    Nat.add_sub_cancel_left, Fin.ofNat_val_eq_self]

theorem readPort_fregs {r : FReg} (ha : a.toNat = 0x030 + r.val) :
    readPort P s a = P.num.toBinary64 (s.getF r) := by
  have hr := r.isLt
  simp (disch := omega) only [readPort, ha, Bool.and_eq_true, decide_eq_true_eq, if_pos, if_neg,
    Nat.add_sub_cancel_left, Fin.ofNat_val_eq_self]

theorem readPort_cfg {c : CfgReg} (ha : a.toNat = 0x040 + c.code.toNat) :
    readPort P s a = (s.cfg.get c).onPort P.num := by
  have hc := c.code_le
  have hcode : BitVec.ofNat 8 (min c.code.toNat 255) = c.code := by
    rw [Nat.min_eq_left (by omega), BitVec.ofNat_toNat, BitVec.setWidth_eq]
  simp (disch := omega) only [readPort, ha, Bool.and_eq_true, decide_eq_true_eq, if_pos, if_neg,
    Nat.add_sub_cancel_left, hcode, CfgReg.ofCode?_code]

/-- An address without a register reads as 0. -/
theorem readPort_unmapped
    (ha : (0x005 ≤ a.toNat ∧ a.toNat ≤ 0x00F) ∨ (0x014 ≤ a.toNat ∧ a.toNat ≤ 0x017) ∨
      (0x01C ≤ a.toNat ∧ a.toNat ≤ 0x01F) ∨ 0x04B ≤ a.toNat) :
    readPort P s a = 0 := by
  have hcode : 0x040 ≤ a.toNat → CfgReg.ofCode? (BitVec.ofNat 8 (min (a.toNat - 0x040) 255)) = none := by
    intro hbase
    refine CfgReg.ofCode?_eq_none ?_
    rw [BitVec.toNat_ofNat]
    omega
  simp (disch := omega) only [readPort, Bool.and_eq_true, decide_eq_true_eq, if_neg]
  by_cases hbase : 0x040 ≤ a.toNat
  · rw [if_pos hbase, hcode hbase]
  · rw [if_neg hbase]

/-- A read takes its operation from the host's queue and answers the host, and changes nothing else (R105). -/
theorem step_read {rest : List HostOp} (hp : s.pending = .read a :: rest) :
    step s = .next { s with pending := rest, replies := s.replies ++ [readPort Config.params s a] } := by
  rw [step_of_pending hp]
  rfl

end

/-- Settles O7: each range of the map is one branch of `readPort`, and a register's address lies in its own. -/
theorem readPortMap : Obligations.ReadPortMap := by
  intro s
  have haddr : ∀ {n : Nat}, n < 2 ^ 12 → (BitVec.ofNat 12 n).toNat = n := Nat.mod_eq_of_lt
  refine ⟨fun a rest => step_read, rfl, rfl, rfl, rfl, fun hdec => ?_, fun h need got hdec => ?_,
    fun r => readPort_rregs (haddr (by omega)), fun r => readPort_rfregs (haddr (by omega)),
    fun r => readPort_iregs (haddr (by omega)), fun r => readPort_fregs (haddr (by omega)),
    fun c => ?_, fun a => readPort_unmapped⟩
  · exact congrArg decSummary hdec
  · rw [Nat.add_comm, Nat.mul_comm]
    exact congrArg decSummary hdec
  · have hc := c.code_le
    exact (readPort_cfg (haddr (by omega))).trans (by cases s.cfg.get c <;> rfl)

end Sys2Proof.Machine
end

section
/-! PROOFS. The element commands BUF_PUSHI, BUF_PUSHF, BUF_GETI and BUF_GETF (R110, R215 to R218): what an
element access answers for each kind, and what each command makes of the answer. -/

namespace Sys2Proof.Machine

/-! ### Integer elements (R110) -/

/-- The kinds with integer elements pass the operand check of BUF_PUSHI and BUF_GETI (R215, R217). -/
theorem Obj.asIntList_of_intKind {o : Obj} (hk : o.kind ∈ intKinds) : o.asIntList = some o := by
  have hkinds : ∀ k ∈ intKinds, (k.isList && k ≠ .reals) = true := by decide
  exact if_pos (hkinds _ hk)

theorem existing_of_intKind {s : State} {a : Handle} {o : Obj} (ho : Holds s a o) (hk : o.kind ∈ intKinds) :
    existing s a Obj.asIntList = .ok o :=
  existing_of_holds ho (Obj.asIntList_of_intKind hk)

section

variable {xs : List Byte} {v : Bits64}

theorem Obj.pushInt?_bytes (hv : v.toNat ≤ 255) :
    (Obj.bytes xs).pushInt? v = some (.bytes (xs ++ [BitVec.ofNat 8 v.toNat])) := by
  rw [BitVec.ofNat_toNat]
  exact if_pos hv

theorem Obj.pushInt?_symbols (hv : v.toNat ≤ 255) :
    (Obj.symbols xs).pushInt? v = some (.symbols (xs ++ [BitVec.ofNat 8 v.toNat])) := by
  rw [BitVec.ofNat_toNat]
  exact if_pos hv

theorem Obj.pushInt?_mask {ms : List Bool} (hv : v.toNat ≤ 1) :
    (Obj.mask ms).pushInt? v = some (.mask (ms ++ [decide (v.toNat = 1)])) := if_pos hv

theorem Obj.pushInt?_bytes_eq_none (hv : 255 < v.toNat) : (Obj.bytes xs).pushInt? v = none :=
  if_neg (Nat.not_le_of_lt hv)

theorem Obj.pushInt?_symbols_eq_none (hv : 255 < v.toNat) : (Obj.symbols xs).pushInt? v = none :=
  if_neg (Nat.not_le_of_lt hv)

theorem Obj.pushInt?_mask_eq_none {ms : List Bool} (hv : 1 < v.toNat) : (Obj.mask ms).pushInt? v = none :=
  if_neg (Nat.not_le_of_lt hv)

end

/-- An appended element makes a list longer by one. -/
theorem Obj.listLength_of_pushInt? {o p : Obj} {v : Bits64} (h : o.pushInt? v = some p) :
    p.listLength = o.listLength + 1 := by
  cases o with
  | bytes | symbols | mask =>
    simp only [Obj.pushInt?, Option.ite_none_right_eq_some, Option.some.injEq] at h
    obtain ⟨-, rfl⟩ := h
    exact List.length_append
  | indices =>
    cases h
    exact List.length_append
  | reals | chanSyms | packer | stream | tracker | codec | mod | dem => cases h

section

variable {j : Nat}

theorem Obj.readInt?_bytes {xs : List Byte} (h : j < xs.length) :
    (Obj.bytes xs).readInt? j = some (BitVec.ofNat 64 xs[j].toNat) := by
  simp [Obj.readInt?, h]

theorem Obj.readInt?_symbols {xs : List Byte} (h : j < xs.length) :
    (Obj.symbols xs).readInt? j = some (BitVec.ofNat 64 xs[j].toNat) := by
  simp [Obj.readInt?, h]

theorem Obj.readInt?_indices {xs : List Bits64} (h : j < xs.length) :
    (Obj.indices xs).readInt? j = some xs[j] := List.getElem?_eq_getElem h

theorem Obj.readInt?_mask {xs : List Bool} (h : j < xs.length) :
    (Obj.mask xs).readInt? j = some (BitVec.ofNat 64 xs[j].toNat) := by
  simp only [Obj.readInt?, List.getElem?_eq_getElem h, Option.map_some]
  cases xs[j] <;> rfl

/-- There is no element at the end of a list or past it. -/
theorem Obj.readInt?_eq_none {o : Obj} (h : o.listLength ≤ j) : o.readInt? j = none := by
  cases o with
  | bytes | symbols | mask => exact Option.map_eq_none_iff.2 (List.getElem?_eq_none h)
  | indices => exact List.getElem?_eq_none h
  | reals | chanSyms | packer | stream | tracker | codec | mod | dem => rfl

end

/-! ### The commands (R215 to R218) -/

section

variable {a : Handle} {b : IReg} {f : FReg} {s : State} {o : Obj} (ho : Holds s a o)

section

variable (hk : o.kind ∈ intKinds := by simp [Obj.kind, intKinds])
include ho hk

/-- BUF_PUSHI appends an element that fits its kind to a list that is not full (R215). -/
theorem exec_bufPushi_appended {p : Obj} (hpush : o.pushInt? (s.getI b) = some p)
    (hfits : o.listLength + 1 ≤ Config.params.maxElems) :
    exec (.bufPushi a b) s = .next (afterOk (s.putObj a p)) := by
  refine exec_afterOk ?_
  simp only [commandRule, bufPushiRule, existing_of_intKind ho hk, ok_bind, hpush,
    Obj.listLength_of_pushInt? hpush, requireElems_of hfits, done]

/-- BUF_PUSHI refuses a value that its kind's elements cannot hold (R110). -/
theorem exec_bufPushi_refused (hpush : o.pushInt? (s.getI b) = none) :
    exec (.bufPushi a b) s = .next (afterFailure (.bufPushi a b) s .invalidValue) := by
  refine exec_afterFailure ?_
  simp only [commandRule, bufPushiRule, existing_of_intKind ho hk, ok_bind, hpush]

/-- BUF_PUSHI refuses a full list (R200, R215). -/
theorem exec_bufPushi_full {p : Obj} (hpush : o.pushInt? (s.getI b) = some p)
    (hfull : Config.params.maxElems < o.listLength + 1) :
    exec (.bufPushi a b) s = .next (afterFailure (.bufPushi a b) s .capacity) := by
  refine exec_afterFailure ?_
  simp only [commandRule, bufPushiRule, existing_of_intKind ho hk, ok_bind, hpush,
    Obj.listLength_of_pushInt? hpush, requireElems_not hfull, error_bind]

/-- BUF_GETI gives the element at the index, widened as its kind says (R217). -/
theorem exec_bufGeti_read {v : Bits64} (hread : o.readInt? (s.getI b).toNat = some v) :
    exec (.bufGeti a b) s = .next (afterOk (s.setR 0 v)) := by
  refine exec_afterOk ?_
  simp only [commandRule, bufGetiRule, existing_of_intKind ho hk, ok_bind, hread, done]

/-- BUF_GETI refuses an index past the end (R217). -/
theorem exec_bufGeti_outside (hend : o.listLength ≤ (s.getI b).toNat) :
    exec (.bufGeti a b) s = .next (afterFailure (.bufGeti a b) s .invalidValue) := by
  refine exec_afterFailure ?_
  simp only [commandRule, bufGetiRule, existing_of_intKind ho hk, ok_bind, Obj.readInt?_eq_none hend]

end

section

variable {xs : List Number} (hx : Holds s a (.reals xs))
include hx

/-- BUF_PUSHF appends a number to a list that is not full (R216). -/
theorem exec_bufPushf_appended (hfits : xs.length + 1 ≤ Config.params.maxElems) :
    exec (.bufPushf a f) s = .next (afterOk (s.putObj a (.reals (xs ++ [s.getF f])))) := by
  have hreals : existing s a Obj.asReals = .ok xs := existing_of_holds hx rfl
  refine exec_afterOk ?_
  simp only [commandRule, bufPushfRule, hreals, ok_bind, requireElems_of hfits, done]

/-- BUF_PUSHF refuses a full list (R200, R216). -/
theorem exec_bufPushf_full (hfull : Config.params.maxElems < xs.length + 1) :
    exec (.bufPushf a f) s = .next (afterFailure (.bufPushf a f) s .capacity) := by
  have hreals : existing s a Obj.asReals = .ok xs := existing_of_holds hx rfl
  refine exec_afterFailure ?_
  simp only [commandRule, bufPushfRule, hreals, ok_bind, requireElems_not hfull, error_bind]

/-- BUF_GETF gives the number at the index (R218). -/
theorem exec_bufGetf_read (hj : (s.getI b).toNat < xs.length) :
    exec (.bufGetf a b) s = .next (afterOk (s.setRF 0 xs[(s.getI b).toNat])) := by
  have hreals : existing s a Obj.asReals = .ok xs := existing_of_holds hx rfl
  refine exec_afterOk ?_
  simp only [commandRule, bufGetfRule, hreals, ok_bind, List.getElem?_eq_getElem hj, done]

/-- BUF_GETF refuses an index past the end (R218). -/
theorem exec_bufGetf_outside (hend : xs.length ≤ (s.getI b).toNat) :
    exec (.bufGetf a b) s = .next (afterFailure (.bufGetf a b) s .invalidValue) := by
  have hreals : existing s a Obj.asReals = .ok xs := existing_of_holds hx rfl
  refine exec_afterFailure ?_
  simp only [commandRule, bufGetfRule, hreals, ok_bind, List.getElem?_eq_none hend]

end

end

/-- Settles O22: what `Obj.pushInt?` answers for the kind, and then the capacity, decide how a push ends. -/
theorem pushCommands : Obligations.PushCommands := by
  intro a b f s
  refine ⟨fun xs ho hfits hv => ?_, fun xs ho hfits hv => ?_, fun xs ho hfits => ?_, fun xs ho hfits hv => ?_,
    fun xs ho hv => ?_, fun xs ho hv => ?_, fun xs ho hfull hv => ?_, fun xs ho hfull => ?_,
    fun xs ho hfull hv => ?_, fun xs ho => exec_bufPushf_appended ho, fun xs ho => exec_bufPushf_full ho⟩
  · exact exec_bufPushi_appended ho (hpush := Obj.pushInt?_bytes hv) (hfits := hfits)
  · exact exec_bufPushi_appended ho (hpush := Obj.pushInt?_symbols hv) (hfits := hfits)
  · exact exec_bufPushi_appended ho (hpush := rfl) (hfits := hfits)
  · exact exec_bufPushi_appended ho (hpush := Obj.pushInt?_mask hv) (hfits := hfits)
  · rcases ho with ho | ho
    · exact exec_bufPushi_refused ho (hpush := Obj.pushInt?_bytes_eq_none hv)
    · exact exec_bufPushi_refused ho (hpush := Obj.pushInt?_symbols_eq_none hv)
  · exact exec_bufPushi_refused ho (hpush := Obj.pushInt?_mask_eq_none hv)
  · rcases ho with ho | ho
    · exact exec_bufPushi_full ho (hpush := Obj.pushInt?_bytes hv) (hfull := hfull)
    · exact exec_bufPushi_full ho (hpush := Obj.pushInt?_symbols hv) (hfull := hfull)
  · exact exec_bufPushi_full ho (hpush := rfl) (hfull := hfull)
  · exact exec_bufPushi_full ho (hpush := Obj.pushInt?_mask hv) (hfull := hfull)

/-- Settles O23: what `Obj.readInt?` answers for the kind, or the list of numbers, at the index. -/
theorem getCommands : Obligations.GetCommands := by
  intro a b s j
  refine ⟨fun xs h ho => ?_, fun xs h ho => ?_, fun xs h ho => ?_, fun xs h ho => exec_bufGetf_read ho h,
    fun o ho hk hend => exec_bufGeti_outside ho hk hend, fun xs ho hend => exec_bufGetf_outside ho hend⟩
  · rcases ho with ho | ho
    · exact exec_bufGeti_read ho (hread := Obj.readInt?_bytes h)
    · exact exec_bufGeti_read ho (hread := Obj.readInt?_symbols h)
  · exact exec_bufGeti_read ho (hread := Obj.readInt?_indices h)
  · exact exec_bufGeti_read ho (hread := Obj.readInt?_mask h)

end Sys2Proof.Machine
end

section
/-! PROOFS. The bit helpers bit by bit (R102, R254), and the Packer's commands over them (R250 to R253). -/

namespace Sys2Proof.Machine

/-! ### Bytes as bits (R254) -/

/-- The first bit of a byte is bit 7. -/
theorem byteBits_getElem? (b : Byte) {i : Nat} (hi : i < 8) : (byteBits b)[i]? = some (b.getLsbD (7 - i)) := by
  interval_cases i <;> rfl

@[simp] theorem bytesToBits_length (bs : List Byte) : (bytesToBits bs).length = 8 * bs.length := by
  induction bs with
  | nil => rfl
  | cons b bs ih =>
    rw [bytesToBits, List.flatMap_cons, List.length_append, ← bytesToBits, ih, List.length_cons]
    exact (Nat.add_comm 8 _)

/-- Bits `8 * j` to `8 * j + 7` are those of byte `j`. -/
theorem bytesToBits_getElem? (bs : List Byte) {i : Nat} (hi : i < 8) (j : Nat) :
    (bytesToBits bs)[8 * j + i]? = bs[j]?.map fun x => x.getLsbD (7 - i) := by
  induction bs generalizing j with
  | nil => rfl
  | cons b bs ih =>
    rw [bytesToBits, List.flatMap_cons, ← bytesToBits]
    have hlen : (byteBits b).length = 8 := rfl
    cases j with
    | zero =>
      rw [Nat.mul_zero, Nat.zero_add, List.getElem?_append_left (by omega), byteBits_getElem? b hi]
      rfl
    | succ j =>
      rw [List.getElem?_append_right (by omega), hlen, List.getElem?_cons_succ, ← ih]
      congr 1
      omega

/-! ### Bits as a number (R254) -/

/-- The bits before the ones still to come are worth `2 ^ (their number)`. -/
theorem foldl_bits (xs : List Bool) (acc : Nat) :
    xs.foldl (fun acc x => 2 * acc + x.toNat) acc = 2 ^ xs.length * acc + natOfBits xs := by
  induction xs generalizing acc with
  | nil => simp [natOfBits]
  | cons x xs ih =>
    rw [natOfBits, List.foldl_cons, List.foldl_cons, ih, ih (2 * 0 + x.toNat), List.length_cons, pow_succ]
    ring

/-- The first bit is the most significant. -/
theorem natOfBits_cons (x : Bool) (xs : List Bool) :
    natOfBits (x :: xs) = 2 ^ xs.length * x.toNat + natOfBits xs := by
  rw [natOfBits, List.foldl_cons, foldl_bits, Nat.mul_zero, Nat.zero_add]

theorem natOfBits_lt (xs : List Bool) : natOfBits xs < 2 ^ xs.length := by
  induction xs with
  | nil => exact Nat.zero_lt_one
  | cons x xs ih =>
    rw [natOfBits_cons, List.length_cons, pow_succ]
    cases x <;> simp <;> omega

/-- Counted from the least significant bit, the bits of the number are those of the list from its end. -/
theorem natOfBits_testBit (xs : List Bool) {i : Nat} (hi : i < xs.length) :
    (natOfBits xs).testBit (xs.length - 1 - i) = xs.getD i false := by
  induction xs generalizing i with
  | nil => cases hi
  | cons x xs ih =>
    rw [natOfBits_cons, Nat.testBit_two_pow_mul_add _ (natOfBits_lt xs), List.length_cons]
    cases i with
    | zero =>
      rw [if_neg (by omega)]
      cases x <;> simp
    | succ i =>
      have hi' : i < xs.length := Nat.lt_of_succ_lt_succ hi
      rw [if_pos (by omega), List.getD_cons_succ, ← ih hi']
      congr 1
      omega

/-! ### Bits as bytes (R254) -/

/-- The first of eight bits is bit 7. -/
theorem byteOf_getLsbD {xs : List Bool} (hlen : xs.length = 8) {i : Nat} (hi : i < 8) :
    (byteOf xs).getLsbD (7 - i) = xs.getD i false := by
  rw [byteOf, BitVec.getLsbD_ofNat, ← natOfBits_testBit xs (hlen ▸ hi), hlen, decide_eq_true (by omega),
    Bool.true_and]

/-- A list fitted to a length keeps its elements within it, and has the padding after its end. -/
theorem fitTo_getD {α : Type} {n i : Nat} (hi : i < n) (v : α) (xs : List α) :
    (fitTo n v xs).getD i v = xs.getD i v := by
  simp only [fitTo, List.getD_eq_getElem?_getD, List.getElem?_append, List.getElem?_take,
    List.getElem?_replicate, List.length_take]
  by_cases hx : i < xs.length
  · rw [if_pos (by omega), if_pos hi]
  · rw [if_neg (by omega), if_pos (by omega), List.getElem?_eq_none (by omega)]
    rfl

/-- Byte `j` is made of the bits `8 * j` to `8 * j + 7`, padded with zeros. -/
theorem packGroups_getElem? (k : Nat) (xs : List Bool) {j : Nat} (hj : j < k) :
    (packGroups k xs)[j]? = some (byteOf (fitTo 8 false ((xs.drop (8 * j)).take 8))) := by
  induction k generalizing j xs with
  | zero => cases hj
  | succ k ih =>
    cases j with
    | zero => rfl
    | succ j =>
      rw [packGroups, List.getElem?_cons_succ, ih _ (Nat.lt_of_succ_lt_succ hj), List.drop_drop,
        Nat.mul_succ, Nat.add_comm 8]

/-- The bits of the packed bytes are the bits that were packed, and then the padding. -/
theorem packBytes_getLsbD {xs : List Bool} {j i : Nat} {x : Byte} (hx : (packBytes xs)[j]? = some x)
    (hi : i < 8) : x.getLsbD (7 - i) = xs.getD (8 * j + i) false := by
  have hj : j < (xs.length + 7) / 8 := packBytes_length xs ▸ (List.getElem?_eq_some_iff.1 hx).1
  rw [packBytes, packGroups_getElem? _ _ hj] at hx
  cases hx
  rw [byteOf_getLsbD (fitTo_length ..) hi, fitTo_getD hi]
  simp only [List.getD_eq_getElem?_getD, List.getElem?_take, List.getElem?_drop, if_pos hi]

/-! ### Fields (R251, R254) -/

/-- The first bit of a field is the most significant of its `w` bits. -/
theorem fieldBits_getElem? (v : Nat) {w j : Nat} (hj : j < w) :
    (fieldBits v w)[j]? = some (decide (v / 2 ^ (w - 1 - j) % 2 = 1)) := by
  rw [fieldBits, List.getElem?_map, List.getElem?_range hj, Option.map_some, Nat.testBit_eq_decide_div_mod_eq]

/-! ### The commands (R250 to R253) -/

/-- A Packer that does not fit raises `CAPACITY` (R200). -/
theorem requireBits_not {P : Params} {n : Nat} (h : 8 * P.maxElems < n) :
    requireBits P n = .error .capacity := by
  rw [requireBits, require_not]
  rw [← Bool.not_eq_true, fitsBits_iff]
  omega

section

variable {a b : Handle} {v w : IReg} {s : State} {bits : List Bool}

theorem exec_pkNew (ha : Vacant s a) : exec (.pkNew a) s = .next (afterOk (s.putObj a (.packer []))) := by
  refine exec_afterOk ?_
  simp only [commandRule, pkNewRule, fresh_of_vacant ha, ok_bind, done]

section

variable (ha : Holds s a (.packer bits))
include ha

/-- PK_WRBITS refuses a width that is not positive (R251). -/
theorem exec_pkWrbits_invalidWidth (hw : (s.getI w).toInt ≤ 0) :
    exec (.pkWrbits a v w) s = .next (afterFailure (.pkWrbits a v w) s .invalidWidth) := by
  have hbits : existing s a Obj.asPacker = .ok bits := existing_of_holds ha rfl
  refine exec_afterFailure ?_
  simp only [commandRule, pkWrbitsRule, hbits, ok_bind, require_not (decide_eq_false (Int.not_lt.2 hw)),
    error_bind]

/-- With a positive width, PK_WRBITS checks the value and the capacity, and appends the field (R251). -/
theorem pkWrbitsRule_of_operands (P : Params) (hw : 0 < (s.getI w).toInt) {n : Nat}
    (hn : (s.getI w).toInt.toNat = n) :
    pkWrbitsRule P a v w s = (do
      require (64 ≤ n || (s.getI v).toNat < 2 ^ n) .invalidValue
      requireBits P (bits.length + n)
      done (s.putObj a (.packer (bits ++ writeField (s.getI v).toNat n)))) := by
  have hbits : existing s a Obj.asPacker = .ok bits := existing_of_holds ha rfl
  simp only [pkWrbitsRule, hbits, ok_bind, require_of (decide_eq_true hw), hn]

/-- PK_WRBITS refuses a value wider than the width (R251): the width is then below 64. -/
theorem exec_pkWrbits_invalidValue (hw : 0 < (s.getI w).toInt)
    (hv : 2 ^ (s.getI w).toInt.toNat ≤ (s.getI v).toNat) :
    exec (.pkWrbits a v w) s = .next (afterFailure (.pkWrbits a v w) s .invalidValue) := by
  generalize hn : (s.getI w).toInt.toNat = n at hv
  have hwidth : n < 64 := (Nat.pow_lt_pow_iff_right (by decide)).1 (hv.trans_lt (s.getI v).isLt)
  have hwide : (decide (64 ≤ n) || decide ((s.getI v).toNat < 2 ^ n)) = false := by
    simp only [Bool.or_eq_false_iff, decide_eq_false_iff_not]
    omega
  refine exec_afterFailure ?_
  rw [commandRule, pkWrbitsRule_of_operands ha _ hw hn, require_not hwide, error_bind]

section

variable (hw : 0 < (s.getI w).toInt)
  (hv : 64 ≤ (s.getI w).toInt.toNat ∨ (s.getI v).toNat < 2 ^ (s.getI w).toInt.toNat)
include hw hv

/-- PK_WRBITS appends the field where the Packer has room (R251). -/
theorem exec_pkWrbits_appended
    (hfits : bits.length + (s.getI w).toInt.toNat ≤ 8 * Config.params.maxElems) :
    exec (.pkWrbits a v w) s = .next (afterOk
      (s.putObj a (.packer (bits ++ writeField (s.getI v).toNat (s.getI w).toInt.toNat)))) := by
  refine exec_afterOk ?_
  rw [commandRule, pkWrbitsRule_of_operands ha _ hw rfl, require_of (by simpa using hv), ok_bind,
    requireBits_of hfits, ok_bind, done]

/-- PK_WRBITS refuses a field that the Packer has no room for (R200, R251). -/
theorem exec_pkWrbits_full
    (hfull : 8 * Config.params.maxElems < bits.length + (s.getI w).toInt.toNat) :
    exec (.pkWrbits a v w) s = .next (afterFailure (.pkWrbits a v w) s .capacity) := by
  refine exec_afterFailure ?_
  rw [commandRule, pkWrbitsRule_of_operands ha _ hw rfl, require_of (by simpa using hv), ok_bind,
    requireBits_not hfull, error_bind]

end

section

variable {bs : List Byte} (hb : Holds s b (.bytes bs))
include hb

/-- PK_WRBYTES appends the bytes' bits where the Packer has room (R252). -/
theorem exec_pkWrbytes_appended (hfits : bits.length + 8 * bs.length ≤ 8 * Config.params.maxElems) :
    exec (.pkWrbytes a b) s = .next (afterOk (s.putObj a (.packer (bits ++ bytesToBits bs)))) := by
  have hbits : existing s a Obj.asPacker = .ok bits := existing_of_holds ha rfl
  have hbytes : existing s b Obj.asBytes = .ok bs := existing_of_holds hb rfl
  refine exec_afterOk ?_
  simp only [commandRule, pkWrbytesRule, hbits, hbytes, ok_bind, bytesToBits_length, requireBits_of hfits, done]

/-- PK_WRBYTES refuses bytes that the Packer has no room for (R200, R252). -/
theorem exec_pkWrbytes_full (hfull : 8 * Config.params.maxElems < bits.length + 8 * bs.length) :
    exec (.pkWrbytes a b) s = .next (afterFailure (.pkWrbytes a b) s .capacity) := by
  have hbits : existing s a Obj.asPacker = .ok bits := existing_of_holds ha rfl
  have hbytes : existing s b Obj.asBytes = .ok bs := existing_of_holds hb rfl
  refine exec_afterFailure ?_
  simp only [commandRule, pkWrbytesRule, hbits, hbytes, ok_bind, bytesToBits_length, requireBits_not hfull,
    error_bind]

end

end

/-- PK_FLUSH copies a Packer within the capacity as bytes (R253). -/
theorem exec_pkFlush (ha : Vacant s a) (hb : Holds s b (.packer bits))
    (hfits : bits.length ≤ 8 * Config.params.maxElems) :
    exec (.pkFlush a b) s = .next (afterOk (s.putObj a (.bytes (packBytes bits)))) := by
  have hbits : existing s b Obj.asPacker = .ok bits := existing_of_holds hb rfl
  have hout : (packBytes bits).length ≤ Config.params.maxElems := by
    rw [packBytes_length]
    omega
  refine exec_afterOk ?_
  simp only [commandRule, pkFlushRule, fresh_of_vacant ha, hbits, ok_bind, requireElems_of hout, done]

end

/-- Settles O25: the Packer's commands by their checks in order, and each bit helper by what it gives at an
index. -/
theorem packerCommands : Obligations.PackerCommands := by
  refine ⟨fun a b v w s => ⟨exec_pkNew, fun bits ha hw hle hv hfits => ?_, fun bits ha hw hfits => ?_,
      fun bits ha => exec_pkWrbits_invalidWidth ha, fun bits ha => exec_pkWrbits_invalidValue ha,
      fun bits bs ha hb => exec_pkWrbytes_appended ha hb,
      fun bits ha hw hv => exec_pkWrbits_full ha hw (.inr hv),
      fun bits bs ha hb => exec_pkWrbytes_full ha hb, fun bits ha hb => exec_pkFlush ha hb⟩,
    fun b bs => ⟨rfl, bytesToBits_length bs, fun i hi => ⟨byteBits_getElem? b hi, bytesToBits_getElem? bs hi⟩⟩,
    fun xs => ⟨packBytes_length xs, fun j i x => packBytes_getLsbD⟩, rfl, fun x xs => ?_,
    fun v w => ⟨fieldBits_length v w, fun j => fieldBits_getElem? v⟩⟩
  · have happ := exec_pkWrbits_appended ha hw (.inr hv) hfits
    rwa [writeField, if_pos (by omega)] at happ
  · have happ := exec_pkWrbits_appended (v := v) ha (by omega) (.inl (by omega)) hfits
    rwa [writeField, if_neg (by omega), ← List.append_assoc] at happ
  · rw [natOfBits_cons]
    cases x <;> simp

end Sys2Proof.Machine
end

section
/-! PROOFS. MOD_RUN (R112, R370): its checks in order, and what it appends. -/

namespace Sys2Proof.Machine

/-- An optional `SYMBOLS` operand passes the operand check, and stands for its list (R135, R370). -/
theorem optional_of_optionalSymbols {s : State} {d : Handle} {sent : List Byte} (h : OptionalSymbols s d sent) :
    ∃ r, optional s d Obj.asSymbols = .ok r ∧ r.getD [] = sent := by
  rcases h with ⟨rfl, rfl⟩ | hd
  · exact ⟨none, optional_zero, rfl⟩
  · exact ⟨some sent, optional_of_holds hd rfl, rfl⟩

theorem binarySymbols_iff {xs : List Byte} : binarySymbols xs = true ↔ ∀ x ∈ xs, x.toNat ≤ 1 := by
  simp only [binarySymbols, List.all_eq_true, decide_eq_true_eq]

/-- No symbols are modulated to no samples, whatever the kind of the modulator (R370). -/
@[simp] theorem modulate_nil (P : Params) (m : Modulator) (k : Nat) : modulate P m k [] [] = [] := by
  unfold modulate
  cases m.body with
  | bfsk => rfl
  | ofdm => simp [ofdmMod]
  | fhss => rfl

/-- No symbols take no draws (R112). -/
@[simp] theorem drawsTaken_nil (m : Modulator) : drawsTaken m [] [] = 0 := by
  unfold drawsTaken
  cases m.body <;> rfl

/-- The state after a MOD_RUN that emits `out` onto `out0` and takes `draws` draws (R370). -/
def afterRun (s : State) (a : Handle) (draws : Nat) (out0 out : List Number) : State :=
  ({ s with hopDraws := s.hopDraws + draws }.putObj a (.reals (out0 ++ out))).setRNat 0 out.length

section

variable {a b c d : Handle} {out0 : List Number} {m : Modulator} {syms sent : List Byte} {s : State}
  (ha : Holds s a (.reals out0)) (hb : Holds s b (.mod m)) (hc : Holds s c (.symbols syms))
  (hd : OptionalSymbols s d sent)
include ha hb hc hd

/-- Once its operands have passed, MOD_RUN checks the symbols and the capacity, and appends (R370). -/
theorem modRunRule_of_operands (P : Params) :
    modRunRule P a b c d s = (do
      require (binarySymbols (syms ++ sent)) .invalidValue
      requireElems P (out0.length + (modulate P m s.hopDraws sent syms).length)
      done (afterRun s a (drawsTaken m sent syms) out0 (modulate P m s.hopDraws sent syms))) := by
  have hreals : existing s a Obj.asReals = .ok out0 := existing_of_holds ha rfl
  have hmod : existing s b Obj.asMod = .ok m := existing_of_holds hb rfl
  have hsyms : existing s c Obj.asSymbols = .ok syms := existing_of_holds hc rfl
  obtain ⟨sent?, hopt, rfl⟩ := optional_of_optionalSymbols hd
  simp only [modRunRule, hreals, hmod, hsyms, hopt, ok_bind, afterRun]

/-- MOD_RUN refuses a symbol above 1 (R370). -/
theorem exec_modRun_invalidValue (h : ∃ x ∈ syms ++ sent, 1 < x.toNat) :
    exec (.modRun a b c d) s = .next (afterFailure (.modRun a b c d) s .invalidValue) := by
  have hsym : binarySymbols (syms ++ sent) = false := by
    rw [← Bool.not_eq_true, binarySymbols_iff]
    obtain ⟨x, hx, hbig⟩ := h
    exact fun hall => Nat.not_le_of_lt hbig (hall x hx)
  refine exec_afterFailure ?_
  rw [commandRule, modRunRule_of_operands ha hb hc hd, require_not hsym, error_bind]

section

variable (h : ∀ x ∈ syms ++ sent, x.toNat ≤ 1)
include h

/-- MOD_RUN of binary symbols appends its samples where the output has room (R370). -/
theorem exec_modRun_appended
    (hfits : out0.length + (modulate Config.params m s.hopDraws sent syms).length ≤ Config.params.maxElems) :
    exec (.modRun a b c d) s = .next (afterOk
      (afterRun s a (drawsTaken m sent syms) out0 (modulate Config.params m s.hopDraws sent syms))) := by
  refine exec_afterOk ?_
  rw [commandRule, modRunRule_of_operands ha hb hc hd, require_of (binarySymbols_iff.2 h), ok_bind,
    requireElems_of hfits, ok_bind, done]

/-- MOD_RUN refuses samples that the output has no room for (R200, R370). -/
theorem exec_modRun_full
    (hfull : Config.params.maxElems < out0.length + (modulate Config.params m s.hopDraws sent syms).length) :
    exec (.modRun a b c d) s = .next (afterFailure (.modRun a b c d) s .capacity) := by
  refine exec_afterFailure ?_
  rw [commandRule, modRunRule_of_operands ha hb hc hd, require_of (binarySymbols_iff.2 h), ok_bind,
    requireElems_not hfull, error_bind]

end

end

/-- Settles O43: the symbols' check and then the capacity decide how MOD_RUN ends; no symbols pass both and emit
nothing. -/
theorem modRunCommand : Obligations.ModRunCommand := by
  intro a b c d out0 m syms sent s ha hb hc hd P out draws
  refine ⟨exec_modRun_appended ha hb hc hd, exec_modRun_full ha hb hc hd,
    exec_modRun_invalidValue ha hb hc hd, ?_⟩
  rintro rfl rfl hfits
  have happ := exec_modRun_appended ha hb hc hd (by simp) (by simpa using hfits)
  rwa [modulate_nil, drawsTaken_nil, afterRun, List.append_nil] at happ

end Sys2Proof.Machine
end

section
/-! PROOFS. The decoder and the encoder undo each other (R131 to R135, R145, R162): each reader of a field or of
extension words inverts its operand's encoding. -/

namespace Sys2Proof

/-- Where two readings run one after the other, both have to answer. -/
theorem bind_eq_ok {α β : Type} {x : Except Reject α} {f : α → Except Reject β} {r : β} :
    (x >>= f) = .ok r ↔ ∃ v, x = .ok v ∧ f v = .ok r := by
  cases x <;> simp [bind, Except.bind]

/-- A check passes on the value it is made of. -/
theorem check_eq_ok {α : Type} {c : Prop} [Decidable c] {x y : α} {e : Reject} :
    (if c then .ok x else .error e) = Except.ok y ↔ c ∧ x = y := by
  split <;> simp [*]

/-- A reading with a check of the value read answers that value. -/
theorem bind_check_eq_ok {α : Type} {x : Except Reject α} {p : α → Prop} [DecidablePred p] {y : α} {e : Reject} :
    (x >>= fun r => if p r then .ok r else .error e) = .ok y ↔ x = .ok y ∧ p y := by
  simp only [bind_eq_ok, check_eq_ok]
  exact ⟨by rintro ⟨r, hx, hr, rfl⟩; exact ⟨hx, hr⟩, fun ⟨hx, hy⟩ => ⟨y, hx, hy, rfl⟩⟩

/-! ### The codes of the named operands (R57, R71, R139) -/

theorem CfgReg.ofCode?_eq_some {v : Byte} {c : CfgReg} : CfgReg.ofCode? v = some c ↔ v = c.code := by
  refine ⟨fun h => ?_, by rintro rfl; exact CfgReg.ofCode?_code c⟩
  unfold CfgReg.ofCode? at h
  split at h <;> cases h <;> exact BitVec.eq_of_toNat_eq ‹_›

theorem Kind.ofField?_eq_some {v : Byte} {k : Kind} :
    Kind.ofField? v = some k ↔ v = k.code ∧ k.isList = true := by
  constructor
  · intro h
    unfold Kind.ofField? at h
    split at h <;> cases h <;> exact ⟨BitVec.eq_of_toNat_eq ‹_›, rfl⟩
  · rintro ⟨rfl, hk⟩
    cases k with
    | bytes | reals | symbols | indices | mask => rfl
    | chanSyms | packer | stream | tracker | codec | mod | dem => cases hk

theorem ModKind.ofCode?_eq_some {v : Byte} {m : ModKind} : ModKind.ofCode? v = some m ↔ v = m.code := by
  constructor
  · intro h
    unfold ModKind.ofCode? at h
    split at h <;> cases h <;> exact BitVec.eq_of_toNat_eq ‹_›
  · rintro rfl
    cases m <;> rfl

/-! ### The field readers (R132, R150, R151) -/

section

variable {v : Byte}

theorem zeroField_eq_ok {u : Unit} : zeroField v = .ok u ↔ v = 0 := by
  simp [zeroField]

/-- A register field holds the register's number (R132). -/
theorem eq_regByte_iff {n : Nat} (hn : n ≤ 256) {r : Fin n} : v = regByte r ↔ v.toNat = r.val := by
  rw [regByte, ← BitVec.toNat_inj, BitVec.toNat_ofNat, Nat.mod_eq_of_lt (by omega)]

theorem regField_eq_ok {n : Nat} (hn : n ≤ 256) {r : Fin n} {e : Reject} :
    (if h : v.toNat < n then .ok ⟨v.toNat, h⟩ else .error e) = Except.ok r ↔ v = regByte r := by
  rw [eq_regByte_iff hn]
  split
  case isTrue h => rw [Except.ok.injEq, Fin.ext_iff]
  case isFalse h =>
    simp only [reduceCtorEq, false_iff]
    omega

theorem reg16Field_eq_ok {r : Fin 16} : reg16Field v = .ok r ↔ v = regByte r := regField_eq_ok (by decide)

theorem reg4Field_eq_ok {r : RReg} : reg4Field v = .ok r ↔ v = regByte r := regField_eq_ok (by decide)

theorem cfgField_eq_ok {c : CfgReg} : cfgField v = .ok c ↔ v = c.code := by
  rw [← CfgReg.ofCode?_eq_some, cfgField]
  cases CfgReg.ofCode? v <;> simp

theorem cfgIntField_eq_ok {c : CfgReg} : cfgIntField v = .ok c ↔ v = c.code ∧ c.isInt = true := by
  rw [cfgIntField, bind_check_eq_ok, cfgField_eq_ok]

theorem cfgNumField_eq_ok {c : CfgReg} : cfgNumField v = .ok c ↔ v = c.code ∧ (!c.isInt) = true := by
  simp only [cfgNumField, ← ite_not (p := _ = true), bind_check_eq_ok, cfgField_eq_ok, Bool.not_eq_true,
    Bool.not_eq_true']

theorem blockField_eq_ok {b : FReg} : blockField v = .ok b ↔ v = regByte b ∧ b.val ≤ 13 := by
  rw [blockField, bind_check_eq_ok, reg16Field_eq_ok]

theorem kindField_eq_ok {k : Kind} : kindField v = .ok k ↔ v = k.code ∧ k.isList = true := by
  rw [← Kind.ofField?_eq_some, kindField]
  cases Kind.ofField? v <;> simp

theorem modeField_eq_ok {m : ModKind} : modeField v = .ok m ↔ v = m.code := by
  rw [← ModKind.ofCode?_eq_some, modeField]
  cases ModKind.ofCode? v <;> simp

theorem circularField_eq_ok {m : Bool} : circularField v = .ok m ↔ v = circularCode m := by
  constructor
  · intro h
    unfold circularField at h
    split at h <;> cases h <;> exact BitVec.eq_of_toNat_eq ‹_›
  · rintro rfl
    cases m <;> rfl

end

/-! ### The extension words (R134, R135) -/

/-- Format `L`'s two words are the halves of its immediate, the high one first (R134). -/
theorem longImmediate_eq_ok {ws : List Word} {v : Bits64} :
    longImmediate ws = .ok v ↔ ws = [v.extractLsb' 32 32, v.extractLsb' 0 32] := by
  constructor
  · intro h
    unfold longImmediate at h
    split at h
    next e1 e2 =>
      cases h
      rw [BitVec.extractLsb'_append_eq_left, BitVec.extractLsb'_append_eq_of_add_le (by decide),
        BitVec.extractLsb'_eq_self]
    next => cases h
  · rintro rfl
    have hv : v.extractLsb' 32 32 ++ v.extractLsb' 0 32 = v :=
      (BitVec.extractLsb'_append_extractLsb'_eq_extractLsb' (by decide)).trans BitVec.extractLsb'_eq_self
    exact congrArg Except.ok hv

/-- An extension word of format `X` is its handle under 24 reserved bits. -/
theorem setWidth_handle (d : Handle) : d.setWidth 32 = (0 : BitVec 24) ++ d :=
  BitVec.setWidth_eq_append (by decide)

/-- Format `X`'s word is its fourth handle, with the reserved bits 0 (R135). -/
theorem extendedHandle_eq_ok {ws : List Word} {d : Handle} :
    extendedHandle ws = .ok d ↔ ws = [d.setWidth 32] := by
  rw [setWidth_handle]
  constructor
  · intro h
    unfold extendedHandle at h
    split at h
    next e =>
      obtain ⟨hreserved, rfl⟩ := check_eq_ok.1 h
      have he : e.extractLsb' 8 24 ++ fieldOp e = e :=
        (BitVec.extractLsb'_append_extractLsb'_eq_extractLsb' (by decide)).trans BitVec.extractLsb'_eq_self
      rw [← hreserved, he]
    next => cases h
  · rintro rfl
    rw [extendedHandle, check_eq_ok, fieldOp, BitVec.extractLsb'_append_eq_left,
      BitVec.extractLsb'_append_eq_of_add_le (by decide), BitVec.extractLsb'_eq_self]
    exact ⟨rfl, rfl⟩

/-! ### Header words (R131) -/

/-- A header word is its four fields. -/
theorem headerOf_fields (w : Word) : headerOf (fieldOp w) (fieldA w) (fieldB w) (fieldC w) = w := by
  rw [headerOf, fieldOp, fieldA, fieldB, fieldC,
    BitVec.extractLsb'_append_extractLsb'_eq_extractLsb' (start₁ := 16) (len₁ := 8) rfl,
    BitVec.extractLsb'_append_extractLsb'_eq_extractLsb' (start₁ := 8) (len₁ := 8) rfl,
    BitVec.extractLsb'_append_extractLsb'_eq_extractLsb' (start₁ := 0) (len₁ := 8) rfl,
    BitVec.extractLsb'_eq_self]

/-- A command's encoding has the length its opcode fixes (R133, R162). -/
theorem encode_length (i : Instr) : (encode i).length = commandLength (headerWord i) := by
  cases i <;> exact Laws.EncodedLength.encodedLength rfl rfl rfl

/-- A command is read from the fields its header word is built from (R131). -/
theorem decodeCommand_headerOf (op a b c : Byte) (ext : List Word) :
    decodeCommand (headerOf op a b c) ext = decodeFields op.toNat a b c ext := by
  simp only [decodeCommand, fieldOp_headerOf, fieldA_headerOf, fieldB_headerOf, fieldC_headerOf]

/-! ### The opcode map (R140) -/

/-- What the decoder accepts is legal and has the header it was read from, and its extension words are those in
front of the words read. -/
theorem decodeFields_sound {n : Nat} {a b c : Byte} {ext : List Word} {i : Instr}
    (h : decodeFields n a b c ext = .ok i) :
    i.WellFormed = true ∧ headerWord i = headerOf (BitVec.ofNat 8 n) a b c ∧
      extensionWords i = ext.take (extensionWords i).length := by
  unfold decodeFields at h
  split at h
  all_goals
    simp only [bind_eq_ok, zeroField_eq_ok, reg16Field_eq_ok, reg4Field_eq_ok, cfgField_eq_ok,
      cfgIntField_eq_ok, cfgNumField_eq_ok, kindField_eq_ok, modeField_eq_ok, circularField_eq_ok,
      blockField_eq_ok, longImmediate_eq_ok, extendedHandle_eq_ok, pure, Except.pure, Except.ok.injEq,
      exists_const, reduceCtorEq] at h
  -- The arms, in the numbering of the opcode map, by the roles of `A`, `B` and `C` (R132); the arms with a check
  -- that the types leave open come first.
  -- `c i 0`
  case h_6 | h_7 =>
    obtain ⟨_, ⟨rfl, hlegal⟩, _, rfl, rfl, rfl⟩ := h
    exact ⟨hlegal, rfl, rfl⟩
  -- `h k 0`
  case h_12 =>
    obtain ⟨_, ⟨rfl, hlegal⟩, rfl, rfl⟩ := h
    exact ⟨hlegal, rfl, rfl⟩
  -- `h fb 0`
  case h_40 =>
    obtain ⟨_, ⟨rfl, hlegal⟩, rfl, rfl⟩ := h
    exact ⟨decide_eq_true hlegal, rfl, rfl⟩
  -- `0 0 0`
  case h_1 | h_9 | h_10 =>
    obtain ⟨rfl, rfl, rfl, rfl⟩ := h
    exact ⟨rfl, rfl, rfl⟩
  -- `i 0 0` with an immediate
  case h_2 | h_3 =>
    obtain ⟨_, rfl, rfl, rfl, _, rfl, rfl⟩ := h
    exact ⟨rfl, rfl, rfl⟩
  -- `i r 0`
  case h_4 | h_11 =>
    obtain ⟨_, rfl, _, rfl, rfl, rfl⟩ := h
    exact ⟨rfl, rfl, rfl⟩
  -- `i i s8`, and `h i i`
  case h_5 | h_23 | h_28 | h_29 | h_36 =>
    obtain ⟨_, rfl, _, rfl, rfl⟩ := h
    exact ⟨rfl, rfl, rfl⟩
  -- `c 0 0`
  case h_8 =>
    obtain ⟨_, rfl, rfl, rfl, rfl⟩ := h
    exact ⟨rfl, rfl, rfl⟩
  -- `h 0 0`
  case h_13 | h_14 | h_22 | h_31 | h_35 | h_39 | h_48 =>
    obtain ⟨rfl, rfl, rfl⟩ := h
    exact ⟨rfl, rfl, rfl⟩
  -- `h i 0`, and `h m 0`
  case h_15 | h_16 | h_17 | h_18 | h_33 | h_41 | h_44 =>
    obtain ⟨_, rfl, rfl, rfl⟩ := h
    exact ⟨rfl, rfl, rfl⟩
  -- `h h i`, `h h m`, and `h h h` with a fourth handle
  case h_19 | h_21 | h_26 | h_27 | h_32 | h_34 | h_38 | h_42 | h_47 | h_49 =>
    obtain ⟨_, rfl, rfl⟩ := h
    exact ⟨rfl, rfl, rfl⟩
  -- `h h 0`
  case h_20 | h_24 | h_25 | h_30 | h_43 | h_51 | h_52 =>
    obtain ⟨rfl, rfl⟩ := h
    exact ⟨rfl, rfl, rfl⟩
  -- `h h h`
  case h_37 | h_45 | h_46 | h_50 =>
    obtain rfl := h
    exact ⟨rfl, rfl, rfl⟩

/-- A reading that answers goes on with its answer. -/
theorem bind_of_ok {α β : Type} {x : Except Reject α} {f : α → Except Reject β} {v : α} {r : β}
    (hx : x = .ok v) (hf : f v = .ok r) : (x >>= f) = .ok r := bind_eq_ok.2 ⟨v, hx, hf⟩

/-- A command is read back from its words where the arm of its opcode reads it back from its fields. -/
theorem decode_encode_of_fields {op a b c : Byte} {i : Instr} (hw : headerWord i = headerOf op a b c)
    (h : decodeFields op.toNat a b c (extensionWords i) = .ok i) : decode (encode i) = .ok i := by
  have hlen : (extensionWords i).length + 1 = commandLength (headerWord i) := encode_length i
  rw [encode, decode, if_pos hlen, hw, decodeCommand_headerOf, h]

/-- Every legal command is read back from its words: each field gives the operand it encodes. Raw handles and the
fields of role `0` are read back by computation. -/
theorem decode_encode {i : Instr} (hi : i.WellFormed = true) : decode (encode i) = .ok i := by
  have zero : zeroField 0 = .ok () := zeroField_eq_ok.2 rfl
  have reg16 (r : Fin 16) : reg16Field (regByte r) = .ok r := reg16Field_eq_ok.2 rfl
  have reg4 (r : RReg) : reg4Field (regByte r) = .ok r := reg4Field_eq_ok.2 rfl
  cases i with
  | nop | clrerr | reset | bufFree | bufLen | bufConcat | pkNew | pkWrbytes | pkFlush | stPeek | stRemain
  | codecMan | codecEnc | codecInfo | modInfo | demRun | demSoft | demInfo | trDecide | syncLocate
  | syncMulti => exact decode_encode_of_fields rfl rfl
  | seti a v | setf a v =>
    exact decode_encode_of_fields rfl
      (bind_of_ok (reg16 a) (bind_of_ok zero (bind_of_ok zero (bind_of_ok (longImmediate_eq_ok.2 rfl) rfl))))
  | movr a b | movrf a b =>
    exact decode_encode_of_fields rfl (bind_of_ok (reg16 a) (bind_of_ok (reg4 b) rfl))
  | addi a b => exact decode_encode_of_fields rfl (bind_of_ok (reg16 a) (bind_of_ok (reg16 b) rfl))
  | cfgWri a b =>
    exact decode_encode_of_fields rfl (bind_of_ok (cfgIntField_eq_ok.2 ⟨rfl, hi⟩) (bind_of_ok (reg16 b) rfl))
  | cfgWrf a b =>
    exact decode_encode_of_fields rfl (bind_of_ok (cfgNumField_eq_ok.2 ⟨rfl, hi⟩) (bind_of_ok (reg16 b) rfl))
  | cfgRd a => exact decode_encode_of_fields rfl (bind_of_ok (cfgField_eq_ok.2 rfl) rfl)
  | bufNew a k => exact decode_encode_of_fields rfl (bind_of_ok (kindField_eq_ok.2 ⟨rfl, hi⟩) rfl)
  | carriers a b =>
    exact decode_encode_of_fields rfl (bind_of_ok (blockField_eq_ok.2 ⟨rfl, of_decide_eq_true hi⟩) rfl)
  | modNew a m | demNew a m => exact decode_encode_of_fields rfl (bind_of_ok (modeField_eq_ok.2 rfl) rfl)
  | stNew a b m => exact decode_encode_of_fields rfl (bind_of_ok (circularField_eq_ok.2 rfl) rfl)
  | bufPushi a b | bufPushf a b | bufGeti a b | bufGetf a b | trkNext a b =>
    exact decode_encode_of_fields rfl (bind_of_ok (reg16 b) rfl)
  | bufSlice a b c | chGet a b c | stRdbits a b c | trkNew a b c | trkTolist a b c | demAssemble a b c
  | trGardner a b c => exact decode_encode_of_fields rfl (bind_of_ok (reg16 c) rfl)
  | pkWrbits a b c | stRdu a b c | stRds a b c | codecRs a b c =>
    exact decode_encode_of_fields rfl (bind_of_ok (reg16 b) (bind_of_ok (reg16 c) rfl))
  | codecDec a b c d | modRun a b c d =>
    exact decode_encode_of_fields rfl (bind_of_ok (extendedHandle_eq_ok.2 rfl) rfl)

/-- Accepted words are the encoding of the legal command read from them: the header by its fields, the extension
words because the length leaves none over. -/
theorem encode_of_decode {ws : List Word} {i : Instr} (h : decode ws = .ok i) :
    i.WellFormed = true ∧ encode i = ws := by
  cases ws with
  | nil => cases h
  | cons w ext =>
    have hlen : commandLength w = ext.length + 1 := Machine.commandLength_of_decode h
    rw [decode, if_pos hlen.symm] at h
    obtain ⟨hwf, hheader, hext⟩ := decodeFields_sound h
    rw [BitVec.ofNat_toNat, BitVec.setWidth_eq, headerOf_fields] at hheader
    have hext_len : (extensionWords i).length + 1 = ext.length + 1 :=
      (encode_length i).trans (hheader ▸ hlen)
    rw [Nat.succ.inj hext_len, List.take_length] at hext
    exact ⟨hwf, by rw [encode, hheader, hext]⟩

/-- Settles O1: by the shape of each command's operands, whose readers undo their encodings. -/
theorem decodeEncode : Obligations.DecodeEncode := fun _ => decode_encode

/-- Settles O2: by the arms of the decoder, each of which accepts only the fields its command's encoding has. -/
theorem encodeDecode : Obligations.EncodeDecode := fun _ _ => encode_of_decode

/-- Settles O3: the words are run through the decoder. -/
theorem decodedWords : Obligations.DecodedWords := by
  unfold Obligations.DecodedWords
  decide

end Sys2Proof
end

section
/-! PROOFS. An undefined opcode is a one-word command that the decoder rejects (R133, R146). -/

namespace Sys2Proof

section

variable {w : Word} {n : Nat}
  (hn : (0x0B ≤ n ∧ n ≤ 0x0F) ∨ (0x1A ≤ n ∧ n ≤ 0x1F) ∨ (0x2A ≤ n ∧ n ≤ 0x2F) ∨
    (0x33 ≤ n ∧ n ≤ 0x3F) ∨ (0x45 ≤ n ∧ n ≤ 0x4F) ∨ (0x54 ≤ n ∧ n ≤ 0x5F) ∨
    (0x65 ≤ n ∧ n ≤ 0x67) ∨ (0x6A ≤ n ∧ n ≤ 0x6F) ∨ 0x72 ≤ n)
include hn

/-- No arm of the opcode map is of an undefined opcode. -/
theorem decodeFields_undefined (a b c : Byte) (ext : List Word) :
    decodeFields n a b c ext = .error .undefinedOpcode := by
  unfold decodeFields
  split
  case h_53 => rfl
  all_goals omega

/-- An undefined opcode's command is its header word alone (R133). -/
theorem commandLength_undefined (hw : (fieldOp w).toNat = n) : commandLength w = 1 := by
  unfold commandLength
  split
  case h_5 => rfl
  all_goals omega

/-- The header word of an undefined opcode is no legal command, whatever its other bits. -/
theorem decode_undefined (hw : (fieldOp w).toNat = n) : decode [w] = .error .undefinedOpcode := by
  simp only [decode, decodeCommand, commandLength_undefined hn hw, hw, decodeFields_undefined hn, List.length_nil,
    Nat.zero_add, if_true]

end

end Sys2Proof

namespace Sys2Proof.Machine

/-- Settles O4: the word is a whole command, and the decoder rejects it. -/
theorem undefinedOpcodes : Obligations.UndefinedOpcodes := by
  intro w rest s op hop hdec hp
  rw [step_single hp hdec (commandLength_undefined hop rfl), executeWords_illegal (decode_undefined hop rfl)]
  rfl

end Sys2Proof.Machine
end

section
/-! PROOFS. The handle operands of every command (R140, R200, R602): each check raises what the class of its
operand says, and a command's rule runs the checks of its operands in field order before anything else. -/

namespace Sys2Proof.Machine

/-! ### One check (R200, R602) -/

/-- The failing status an answer raises. -/
def raised {α : Type} : Except Failure α → Option Failure
  | .ok _ => none
  | .error e => some e

/-- A view accepts the objects of the given kinds and no others. -/
def Accepts {α : Type} (view : Obj → Option α) (kinds : List Kind) : Prop :=
  ∀ o, (view o).isSome = decide (o.kind ∈ kinds)

section

variable {α : Type} {s : State} {h : Handle} {view : Obj → Option α} {kinds : List Kind}

theorem raised_existing (hview : Accepts view kinds) :
    raised (existing s h view) = existingFailure s h kinds := by
  unfold existing existingFailure
  split
  case isTrue => rfl
  case isFalse =>
    cases s.obj h with
    | none => rfl
    | some o =>
      have hkind := hview o
      cases hv : view o with
      | none =>
        rw [hv, eq_comm, Option.isSome_none, decide_eq_false_iff_not] at hkind
        simp only [hv, raised, if_neg hkind]
      | some v =>
        rw [hv, eq_comm, Option.isSome_some, decide_eq_true_iff] at hkind
        simp only [hv, raised, if_pos hkind]

theorem raised_fresh : raised (fresh s h) = freshFailure s h := by
  unfold fresh freshFailure
  split
  case isTrue => rfl
  case isFalse => cases s.obj h <;> rfl

theorem raised_optional (hview : Accepts view kinds) :
    raised (optional s h view) = if h = 0 then none else existingFailure s h kinds := by
  unfold optional
  split
  case isTrue => rfl
  case isFalse =>
    rw [← raised_existing hview]
    cases existing s h view <;> rfl

theorem raised_optionalFresh : raised (optionalFresh s h) = if h = 0 then none else freshFailure s h := by
  unfold optionalFresh
  split
  case isTrue => rfl
  case isFalse => exact raised_fresh

end

/-! ### The kinds each view accepts (R70, R140) -/

theorem Obj.asList_eq_some {o p : Obj} : o.asList = some p ↔ o.kind.isList = true ∧ o = p := by
  rw [Obj.asList, Option.ite_none_right_eq_some, Option.some.injEq]

namespace Accepts

theorem bytes : Accepts Obj.asBytes [.bytes] := fun o => by cases o <;> rfl

theorem reals : Accepts Obj.asReals [.reals] := fun o => by cases o <;> rfl

theorem symbols : Accepts Obj.asSymbols [.symbols] := fun o => by cases o <;> rfl

theorem indices : Accepts Obj.asIndices [.indices] := fun o => by cases o <;> rfl

theorem mask : Accepts Obj.asMask [.mask] := fun o => by cases o <;> rfl

theorem chanSyms : Accepts Obj.asChanSyms [.chanSyms] := fun o => by cases o <;> rfl

theorem packer : Accepts Obj.asPacker [.packer] := fun o => by cases o <;> rfl

theorem stream : Accepts Obj.asStream [.stream] := fun o => by cases o <;> rfl

theorem tracker : Accepts Obj.asTracker [.tracker] := fun o => by cases o <;> rfl

theorem codec : Accepts Obj.asCodec [.codec] := fun o => by cases o <;> rfl

theorem mod : Accepts Obj.asMod [.mod] := fun o => by cases o <;> rfl

theorem dem : Accepts Obj.asDem [.dem] := fun o => by cases o <;> rfl

theorem any : Accepts Obj.asAny allKinds := fun o => by cases o <;> rfl

theorem list : Accepts Obj.asList listKinds := fun o => by cases o <;> rfl

theorem intList : Accepts Obj.asIntList intKinds := fun o => by cases o <;> rfl

theorem source : Accepts Obj.asSource sourceKinds := fun o => by cases o <;> rfl

/-- A list is joined with the lists of its own kind (R220). -/
theorem concat {o : Obj} (ho : o.kind.isList = true) : Accepts o.concat? [o.kind] := by
  intro p
  cases o with
  | bytes | reals | symbols | indices | mask => cases p <;> rfl
  | chanSyms | packer | stream | tracker | codec | mod | dem => cases ho

end Accepts

/-! ### The checks of a rule, in field order (R602) -/

/-- Where one of the operands fails, `x` raises the first failure among them. -/
def ChecksFirst {β : Type} (s : State) (qs : List (Handle × OperandClass)) (x : Except Failure β) : Prop :=
  ∀ e, qs.findSome? (operandFailure s) = some e → x = .error e

namespace ChecksFirst

variable {α β : Type} {s : State} {qs : List (Handle × OperandClass)} {h : Handle}

/-- No operand, no failure. -/
theorem nil {x : Except Failure β} : ChecksFirst s [] x := nofun

/-- A check of the first operand, and after it the checks of the others. -/
theorem cons {q : Handle × OperandClass} {x : Except Failure α} {f : α → Except Failure β}
    (hx : raised x = operandFailure s q) (hf : ∀ v, x = .ok v → ChecksFirst s qs (f v)) :
    ChecksFirst s (q :: qs) (x >>= f) := by
  intro e he
  rw [List.findSome?_cons, ← hx] at he
  cases x with
  | error e' =>
    cases he
    rfl
  | ok v => exact hf v rfl e he

theorem existing {view : Obj → Option α} {kinds : List Kind} {f : α → Except Failure β}
    (hview : Accepts view kinds) (hf : ∀ v, existing s h view = .ok v → ChecksFirst s qs (f v)) :
    ChecksFirst s ((h, .existing kinds) :: qs) (existing s h view >>= f) := cons (raised_existing hview) hf

theorem fresh {f : Unit → Except Failure β} (hf : ChecksFirst s qs (f ())) :
    ChecksFirst s ((h, .fresh) :: qs) (fresh s h >>= f) := cons raised_fresh fun _ _ => hf

theorem optional {view : Obj → Option α} {kinds : List Kind} {f : Option α → Except Failure β}
    (hview : Accepts view kinds) (hf : ∀ v, ChecksFirst s qs (f v)) :
    ChecksFirst s ((h, .optional kinds) :: qs) (optional s h view >>= f) :=
  cons (raised_optional hview) fun v _ => hf v

theorem optionalFresh {f : Unit → Except Failure β} (hf : ChecksFirst s qs (f ())) :
    ChecksFirst s ((h, .optionalFresh) :: qs) (optionalFresh s h >>= f) :=
  cons raised_optionalFresh fun _ _ => hf

end ChecksFirst

section

variable {P : Params} {s : State}

/-- BUF_NEW of a kind it creates checks its destination (R210). -/
theorem bufNewRule_checksFirst {a : Handle} {k : Kind} (hk : k.isList = true) :
    ChecksFirst s [(a, .fresh)] (bufNewRule a k s) := by
  cases k with
  | bytes | reals | symbols | indices | mask => exact .fresh .nil
  | chanSyms | packer | stream | tracker | codec | mod | dem => cases hk

/-- CARRIERS of a block inside the file checks its destination (R132, R360). -/
theorem carriersRule_checksFirst {a : Handle} {b : FReg} (hb : decide (b.val ≤ 13) = true) :
    ChecksFirst s [(a, .fresh)] (carriersRule P a b s) := by
  rw [carriersRule, require_of hb, ok_bind]
  exact .fresh .nil

/-- The second list of BUF_CONCAT has to be of the first's kind (R220). -/
theorem bufConcatRule_checksFirst {a b : Handle} :
    ChecksFirst s [(a, .existing listKinds), (b, .existing (kindAt s a))] (bufConcatRule P a b s) := by
  refine .existing .list fun o ho => ?_
  obtain ⟨-, o', hobj, hview⟩ := existing_eq_ok.1 ho
  obtain ⟨hlist, rfl⟩ := Obj.asList_eq_some.1 hview
  have hkind : kindAt s a = [o'.kind] := by rw [kindAt, hobj, Option.map_some, Option.toList_some]
  rw [hkind]
  exact .existing (.concat hlist) fun _ _ => .nil

/-- Every legal command's rule checks the command's handle operands first, in field order (R602). -/
theorem commandRule_checksFirst {i : Instr} (hi : i.WellFormed = true) :
    ChecksFirst s (handleOperands s i) (commandRule P i s) := by
  cases i with
  | nop | seti | setf | movr | addi | cfgWri | cfgWrf | cfgRd | clrerr | reset | movrf => exact .nil
  | bufNew => exact bufNewRule_checksFirst hi
  | carriers => exact carriersRule_checksFirst hi
  | bufConcat => exact bufConcatRule_checksFirst
  | pkNew | codecMan | codecRs | modNew | demNew => exact .fresh .nil
  | bufFree | bufLen => exact .existing .any fun _ _ => .nil
  | bufPushi | bufGeti => exact .existing .intList fun _ _ => .nil
  | bufPushf | bufGetf => exact .existing .reals fun _ _ => .nil
  | bufSlice => exact .fresh (.existing .list fun _ _ => .nil)
  | chGet | demAssemble => exact .fresh (.existing .chanSyms fun _ _ => .nil)
  | pkWrbits => exact .existing .packer fun _ _ => .nil
  | pkWrbytes => exact .existing .packer fun _ _ => .existing .bytes fun _ _ => .nil
  | pkFlush => exact .fresh (.existing .packer fun _ _ => .nil)
  | stNew | trkNew | trkTolist => exact .fresh (.existing .source fun _ _ => .nil)
  | stRdbits | stPeek => exact .existing .stream fun _ _ => .fresh .nil
  | stRdu | stRds | stRemain => exact .existing .stream fun _ _ => .nil
  | trkNext => exact .existing .tracker fun _ _ => .nil
  | codecEnc => exact .fresh (.existing .codec fun _ _ => .existing .bytes fun _ _ => .nil)
  | codecDec =>
    exact .fresh (.existing .codec fun _ _ => .existing .bytes fun _ _ => .optional .mask fun _ => .nil)
  | codecInfo => exact .existing .codec fun _ _ => .nil
  | modRun =>
    exact .existing .reals fun _ _ => .existing .mod fun _ _ => .existing .symbols fun _ _ =>
      .optional .symbols fun _ => .nil
  | modInfo => exact .optionalFresh (.existing .mod fun _ _ => .nil)
  | demRun | demSoft => exact .fresh (.existing .dem fun _ _ => .existing .reals fun _ _ => .nil)
  | demInfo => exact .existing .dem fun _ _ => .nil
  | trGardner => exact .fresh (.existing .reals fun _ _ => .nil)
  | trDecide => exact .fresh (.existing .reals fun _ _ => .existing .indices fun _ _ => .nil)
  | syncLocate => exact .existing .symbols fun _ _ => .existing .symbols fun _ _ => .nil
  | syncMulti => exact .existing .chanSyms fun _ _ => .existing .symbols fun _ _ => .nil

end

/-- Settles O16: the rule of a legal command raises the first failure of its handle operands. -/
theorem handleOperandsChecked : Obligations.HandleOperandsChecked :=
  fun _ _ _ hi hf => exec_afterFailure (commandRule_checksFirst hi _ hf)

end Sys2Proof.Machine
end

section
/-! PROOFS. The register and control commands (R201 to R204, R208, R209, R213, R214) and the reset line (R702):
none of them can fail. -/

namespace Sys2Proof.Machine

section

variable (s : State)

theorem exec_nop : exec .nop s = .next (afterOk s) := exec_afterOk rfl

theorem exec_seti (a : IReg) (v : Bits64) : exec (.seti a v) s = .next (afterOk (s.setI a v)) :=
  exec_afterOk rfl

theorem exec_setf (a : FReg) (v : Bits64) :
    exec (.setf a v) s = .next (afterOk (s.setF a (Config.params.num.ofBinary64 v))) :=
  exec_afterOk rfl

theorem exec_movr (a : IReg) (b : RReg) : exec (.movr a b) s = .next (afterOk (s.setI a (s.getR b))) :=
  exec_afterOk rfl

theorem exec_movrf (a : FReg) (b : RReg) : exec (.movrf a b) s = .next (afterOk (s.setF a (s.getRF b))) :=
  exec_afterOk rfl

theorem exec_addi (a b : IReg) (v : Byte) :
    exec (.addi a b v) s = .next (afterOk (s.setI a (s.getI b + v.signExtend 64))) :=
  exec_afterOk rfl

theorem exec_clrerr : exec .clrerr s = .next (afterOk { s with sticky := 0 }) := exec_afterOk rfl

/-- The status `OK` that RESET ends with is the one a reset leaves (R209, R700). -/
theorem exec_reset : exec .reset s = .next (s.resetBlock Config.params) :=
  exec_afterOk (t := s.resetBlock Config.params) rfl

end

/-- The reset line resets the block, whatever its decoder holds (R702). -/
theorem step_resetLine {s : State} {rest : List HostOp} (hp : s.pending = .resetLine :: rest) :
    step s = .next (State.resetBlock Config.params { s with pending := rest }) :=
  step_of_pending hp

/-- Settles O18: each command's rule is its one write, and it ends with `OK`. -/
theorem registerCommands : Obligations.RegisterCommands := fun s =>
  ⟨exec_nop s, exec_seti s, exec_setf s, exec_movr s, exec_movrf s, exec_addi s⟩

/-- Settles O20: CLRERR writes `STICKY` alone, and RESET and the reset line reset the block. -/
theorem clearAndReset : Obligations.ClearAndReset :=
  ⟨fun s => ⟨exec_clrerr s, exec_reset s⟩, fun _ _ hp => step_resetLine hp⟩

end Sys2Proof.Machine
end

section
/-! PROOFS. The commands on whole objects and lists: BUF_NEW, BUF_FREE and BUF_LEN (R210 to R212), BUF_SLICE,
BUF_CONCAT and CH_GET (R219 to R221). -/

namespace Sys2Proof.Machine

/-! ### Creating, freeing and measuring (R210 to R212) -/

section

variable {a : Handle} {s : State} {o : Obj}

/-- BUF_NEW puts the empty list of its kind into the fresh slot (R210). -/
theorem exec_bufNew {k : Kind} (ha : Vacant s a) (hk : Obj.emptyOf? k = some o) :
    exec (.bufNew a k) s = .next (afterOk (s.putObj a o)) := by
  refine exec_afterOk ?_
  simp only [commandRule, bufNewRule, hk, fresh_of_vacant ha, ok_bind, done]

/-- BUF_FREE empties the slot, whatever the kind of its object (R211). -/
theorem exec_bufFree (ha : Holds s a o) : exec (.bufFree a) s = .next (afterOk (s.freeObj a)) := by
  have hany : existing s a Obj.asAny = .ok o := existing_of_holds ha rfl
  refine exec_afterOk ?_
  simp only [commandRule, bufFreeRule, hany, ok_bind, done]

/-- BUF_LEN reports the length and the kind's code (R212). -/
theorem exec_bufLen (ha : Holds s a o) :
    exec (.bufLen a) s =
      .next (afterOk ((s.setRNat 0 o.reportedLength).setR 1 (o.kind.code.setWidth 64))) := by
  have hany : existing s a Obj.asAny = .ok o := existing_of_holds ha rfl
  refine exec_afterOk ?_
  simp only [commandRule, bufLenRule, hany, ok_bind, done]

end

/-- Settles O21: a fresh slot or a held object passes the one check of its command, and the twelve kinds differ
only in the length and the code reported. -/
theorem objectCommands : Obligations.ObjectCommands := by
  refine fun a s => ⟨fun ha => ?_, fun o ha => ?_, ?_⟩
  · refine ⟨?_, ?_, ?_, ?_, ?_⟩ <;> exact exec_bufNew ha rfl
  · refine ⟨afterOk (s.freeObj a), exec_bufFree ha, ?_, rfl, fun h hne => ?_⟩
    · exact (State.obj_freeObj s a a).trans (if_pos rfl)
    · exact (State.obj_freeObj s a h).trans (if_neg hne.symm)
  · refine ⟨?_, ?_, ?_, ?_, ?_, ?_, ?_, ?_, ?_, ?_, ?_, ?_⟩ <;> exact fun _ => exec_bufLen

/-! ### Lists (R219, R220) -/

/-- A list passes the operand check of BUF_SLICE and BUF_CONCAT (R219, R220). -/
theorem existing_of_list {s : State} {h : Handle} {o : Obj} (ho : Holds s h o) (hk : o.kind.isList = true) :
    existing s h Obj.asList = .ok o :=
  existing_of_holds ho (Obj.asList_eq_some.2 ⟨hk, rfl⟩)

/-- A list object is joined to another only where it is a list itself (R220). -/
theorem Obj.isList_left_of_concat? {o p q : Obj} (h : o.concat? p = some q) : o.kind.isList = true := by
  unfold Obj.concat? at h
  split at h
  case h_6 => cases h
  all_goals rfl

section

variable {a b : Handle} {c : IReg} {s : State} {o : Obj} (ha : Vacant s a) (hb : Holds s b o)
  (hk : o.kind.isList = true)
include ha hb hk

/-- BUF_SLICE copies the elements from the start on (R219). -/
theorem exec_bufSlice_copied (hstart : 0 ≤ (s.getI c).toInt)
    (hfits : (o.dropList (s.getI c).toInt.toNat).listLength ≤ Config.params.maxElems) :
    exec (.bufSlice a b c) s = .next (afterOk (s.putObj a (o.dropList (s.getI c).toInt.toNat))) := by
  refine exec_afterOk ?_
  simp only [commandRule, bufSliceRule, fresh_of_vacant ha, existing_of_list hb hk, ok_bind,
    require_of (decide_eq_true hstart), requireElems_of hfits, done]

/-- BUF_SLICE refuses a negative start (R219). -/
theorem exec_bufSlice_refused (hstart : (s.getI c).toInt < 0) :
    exec (.bufSlice a b c) s = .next (afterFailure (.bufSlice a b c) s .invalidValue) := by
  refine exec_afterFailure ?_
  simp only [commandRule, bufSliceRule, fresh_of_vacant ha, existing_of_list hb hk, ok_bind,
    require_not (decide_eq_false (Int.not_le.2 hstart)), error_bind]

end

section

variable {a b : Handle} {s : State} {o p q : Obj} (ha : Holds s a o) (hb : Holds s b p)
  (hjoin : o.concat? p = some q)
include ha hb hjoin

/-- With two lists of one kind, BUF_CONCAT checks only the capacity (R220). -/
theorem bufConcatRule_of_joined (P : Params) :
    bufConcatRule P a b s = (requireElems P q.listLength >>= fun _ => done (s.putObj a q)) := by
  have hlist : existing s a Obj.asList = .ok o := existing_of_list ha (Obj.isList_left_of_concat? hjoin)
  have hsame : existing s b o.concat? = .ok q := existing_of_holds hb hjoin
  simp only [bufConcatRule, hlist, hsame, ok_bind]

/-- BUF_CONCAT puts the joined list into the first slot where it fits (R220). -/
theorem exec_bufConcat_joined (hfits : q.listLength ≤ Config.params.maxElems) :
    exec (.bufConcat a b) s = .next (afterOk (s.putObj a q)) := by
  refine exec_afterOk ?_
  rw [commandRule, bufConcatRule_of_joined ha hb hjoin, requireElems_of hfits, ok_bind, done]

/-- BUF_CONCAT refuses two lists that do not fit together (R200, R220). -/
theorem exec_bufConcat_full (hfull : Config.params.maxElems < q.listLength) :
    exec (.bufConcat a b) s = .next (afterFailure (.bufConcat a b) s .capacity) := by
  refine exec_afterFailure ?_
  rw [commandRule, bufConcatRule_of_joined ha hb hjoin, requireElems_not hfull, error_bind]

end

/-! ### Channels (R221) -/

section

variable {a b : Handle} {c : IReg} {s : State} {chs : Bank (List Byte)} (ha : Vacant s a)
  (hb : Holds s b (.chanSyms chs))
include ha hb

/-- CH_GET copies the symbols of the channel (R221). -/
theorem exec_chGet_copied (hc : (s.getI c).toNat < chs.toList.length)
    (hfits : (chs.toList[(s.getI c).toNat]).length ≤ Config.params.maxElems) :
    exec (.chGet a b c) s = .next (afterOk (s.putObj a (.symbols chs.toList[(s.getI c).toNat]))) := by
  have hchs : existing s b Obj.asChanSyms = .ok chs := existing_of_holds hb rfl
  refine exec_afterOk ?_
  simp only [commandRule, chGetRule, fresh_of_vacant ha, hchs, ok_bind, List.getElem?_eq_getElem hc,
    requireElems_of hfits, done]

/-- CH_GET refuses a channel number past the last (R221). -/
theorem exec_chGet_outside (hend : chs.toList.length ≤ (s.getI c).toNat) :
    exec (.chGet a b c) s = .next (afterFailure (.chGet a b c) s .invalidValue) := by
  have hchs : existing s b Obj.asChanSyms = .ok chs := existing_of_holds hb rfl
  refine exec_afterFailure ?_
  simp only [commandRule, chGetRule, fresh_of_vacant ha, hchs, ok_bind, List.getElem?_eq_none hend]

end

/-- Settles O24: the start's sign decides BUF_SLICE and the channel number CH_GET; two lists of one kind leave
BUF_CONCAT only the capacity to check. -/
theorem listCommands : Obligations.ListCommands := by
  have hlists : ∀ k ∈ listKinds, k.isList = true := by decide
  refine ⟨fun a b c s ha => ⟨fun hstart => ?_, fun o hb hk => exec_bufSlice_refused ha hb (hlists _ hk),
    fun chs hc hb => exec_chGet_copied ha hb hc, fun chs hb => exec_chGet_outside ha hb⟩, fun a b s => ?_⟩
  · refine ⟨?_, ?_, ?_, ?_, ?_⟩ <;> exact fun _ hb => exec_bufSlice_copied ha hb rfl hstart
  · refine ⟨?_, ?_, ?_, ?_, ?_, ?full⟩
    case full => refine ⟨?_, ?_, ?_, ?_, ?_⟩ <;> exact fun _ _ ha hb => exec_bufConcat_full ha hb rfl
    all_goals exact fun _ _ ha hb => exec_bufConcat_joined ha hb rfl

end Sys2Proof.Machine
end

section
/-! PROOFS. The source of a Stream or Tracker is checked right after the handle operands (R268, R303, R602). -/

namespace Sys2Proof.Machine

/-- The object an operand check answers is what the view gives of the slot. -/
theorem bind_view_of_existing {α : Type} {s : State} {h : Handle} {view : Obj → Option α} {v : α}
    (he : existing s h view = .ok v) : (s.obj h).bind view = some v := by
  obtain ⟨-, o, ho, hv⟩ := existing_eq_ok.1 he
  rw [ho, Option.bind_some, hv]

section

variable {P : Params} {s : State} {i : Instr} {src : Handle}

/-- A command over a Stream or Tracker checks its handle operands and then, as one more existing object, the
source (R268, R303, R602). -/
theorem commandRule_checksSource (hsrc : indirectSource s i = some src) :
    ChecksFirst s (handleOperands s i ++ [(src, .existing sourceKinds)]) (commandRule P i s) := by
  cases i with
  | stRdbits | stPeek =>
    refine .existing .stream fun st hst => .fresh ?_
    rw [indirectSource, bind_view_of_existing hst] at hsrc
    cases hsrc
    exact .existing .source fun _ _ => .nil
  | stRdu | stRds | stRemain =>
    refine .existing .stream fun st hst => ?_
    rw [indirectSource, bind_view_of_existing hst] at hsrc
    cases hsrc
    exact .existing .source fun _ _ => .nil
  | trkNext =>
    refine .existing .tracker fun tr htr => ?_
    rw [indirectSource, bind_view_of_existing htr] at hsrc
    cases hsrc
    exact .existing .source fun _ _ => .nil
  | _ => cases hsrc

end

/-- Settles O17: where the handle operands pass, the source's failure is the first among the checks. -/
theorem sourcesChecked : Obligations.SourcesChecked := by
  intro i s src e hpass hsrc he
  refine exec_afterFailure (commandRule_checksSource hsrc e ?_)
  rw [List.findSome?_append, ← firstOperandFailure, hpass, Option.none_or]
  simp only [List.findSome?_cons, operandFailure, he]

end Sys2Proof.Machine
end

section
/-! PROOFS. The Stream commands ST_NEW, ST_PEEK, ST_REMAIN (R260, R266, R267) and ST_RDBITS, ST_RDU, ST_RDS
(R262 to R265): what a read gives for each mode, and what each command makes of it. -/

namespace Sys2Proof.Machine

/-! ### Inspection (R260, R266, R267) -/

/-- The source of a Stream or Tracker, resolved at the time of the command (R261, R268). -/
theorem resolveSource_of_sourceBits {s : State} {h : Handle} {xs : List Bool} (hs : SourceBits s h xs) :
    ∃ src, resolveSource s h = .ok src ∧ src.bits = xs := existing_of_sourceBits hs

/-- ST_NEW makes a Stream at the source's first bit (R260). -/
theorem exec_stNew {a b : Handle} {m : Bool} {s : State} {xs : List Bool} (ha : Vacant s a)
    (hb : SourceBits s b xs) :
    exec (.stNew a b m) s = .next (afterOk (s.putObj a (.stream ⟨b, m, 0⟩))) := by
  obtain ⟨src, hsrc, -⟩ := existing_of_sourceBits hb
  refine exec_afterOk ?_
  simp only [commandRule, stNewRule, fresh_of_vacant ha, hsrc, ok_bind, done]

section

variable {a b : Handle} {s : State} {st : Stream} {xs : List Bool} (ha : Holds s a (.stream st))
include ha

/-- ST_PEEK reports the cursor and the source's length in bits, and copies the source as bytes (R266). -/
theorem exec_stPeek {src : Source} (hb : Vacant s b) (hsrc : resolveSource s st.src = .ok src)
    (hfits : src.snapshot.length ≤ Config.params.maxElems) :
    exec (.stPeek a b) s = .next (afterOk
      (((s.setRNat 0 st.rd).setRNat 1 src.bits.length).putObj b (.bytes src.snapshot))) := by
  have hst : existing s a Obj.asStream = .ok st := existing_of_holds ha rfl
  refine exec_afterOk ?_
  simp only [commandRule, stPeekRule, hst, fresh_of_vacant hb, hsrc, ok_bind, requireElems_of hfits, done]

section

variable (hxs : SourceBits s st.src xs)
include hxs

/-- ST_REMAIN of a linear Stream reports the bits left (R267). -/
theorem exec_stRemain_linear (hmode : st.circular = false) :
    exec (.stRemain a) s = .next (afterOk ((s.setRNat 0 (xs.length - st.rd)).setR 1 0)) := by
  have hst : existing s a Obj.asStream = .ok st := existing_of_holds ha rfl
  obtain ⟨src, hsrc, rfl⟩ := resolveSource_of_sourceBits hxs
  refine exec_afterOk ?_
  simp only [commandRule, stRemainRule, hst, hsrc, ok_bind, hmode, Bool.false_eq_true, if_false, done]

/-- ST_REMAIN of a circular Stream over a source that is not empty reports "unbounded" (R267). -/
theorem exec_stRemain_circular (hmode : st.circular = true) (hne : xs ≠ []) :
    exec (.stRemain a) s = .next (afterOk ((s.setR 0 0xFFFFFFFFFFFFFFFF).setR 1 1)) := by
  have hst : existing s a Obj.asStream = .ok st := existing_of_holds ha rfl
  obtain ⟨src, hsrc, rfl⟩ := resolveSource_of_sourceBits hxs
  have hlen : src.bits.length ≠ 0 := mt List.length_eq_zero_iff.1 hne
  have hones : BitVec.allOnes 64 = 0xFFFFFFFFFFFFFFFF := rfl
  refine exec_afterOk ?_
  simp only [commandRule, stRemainRule, hst, hsrc, ok_bind, hmode, if_true,
    require_of (decide_eq_true hlen), hones, done]

end

/-- ST_REMAIN of a circular Stream over an empty source has no answer (R267). -/
theorem exec_stRemain_empty (hxs : SourceBits s st.src []) (hmode : st.circular = true) :
    exec (.stRemain a) s = .next (afterFailure (.stRemain a) s .emptyCircular) := by
  have hst : existing s a Obj.asStream = .ok st := existing_of_holds ha rfl
  obtain ⟨src, hsrc, hbits⟩ := resolveSource_of_sourceBits hxs
  have hlen : ¬src.bits.length ≠ 0 := by simp [hbits]
  refine exec_afterFailure ?_
  simp only [commandRule, stRemainRule, hst, hsrc, ok_bind, hmode, if_true,
    require_not (decide_eq_false hlen), error_bind]

end

/-- Settles O26: a source is `BYTES` or a `PACKER`, whose snapshot fits where it does; ST_REMAIN goes by the
Stream's mode and, where that is circular, by whether the source is empty. -/
theorem streamInspection : Obligations.StreamInspection := by
  refine fun a b s => ⟨fun m xs => exec_stNew, fun st bs ha hb hsrc hfits => ?_,
    fun st bits ha hb hsrc hfits => ?_, fun st xs => exec_stRemain_linear,
    fun st xs => exec_stRemain_circular, fun st => exec_stRemain_empty⟩
  · have hbytes : resolveSource s st.src = .ok (.bytes bs) := existing_of_holds hsrc rfl
    rw [← bytesToBits_length]
    exact exec_stPeek ha hb hbytes hfits
  · have hpacker : resolveSource s st.src = .ok (.packer bits) := existing_of_holds hsrc rfl
    refine exec_stPeek ha hb hpacker ?_
    rw [Source.snapshot, packBytes_length]
    omega

/-! ### What a read gives (R262) -/

section

variable {st : Stream} {xs : List Bool} {n : Nat}

/-- A linear read gives the next bits, at most what is left. -/
theorem readStream_linear (hmode : st.circular = false) :
    readStream st xs n = .ok ⟨min n (xs.length - st.rd), (xs.drop st.rd).take (min n (xs.length - st.rd)),
      st.rd + min n (xs.length - st.rd)⟩ := by
  rw [readStream, if_neg (by rw [hmode]; exact Bool.false_ne_true)]

/-- A circular read of a source that is not empty is whole. -/
theorem readStream_circular (hmode : st.circular = true) (hne : xs ≠ []) :
    readStream st xs n = .ok ⟨n, circularBits xs st.rd n, st.rd + n⟩ := by
  rw [readStream, if_pos hmode, if_neg (mt List.length_eq_zero_iff.1 hne)]

/-- A circular read of an empty source has no bits to give. -/
theorem readStream_empty (hmode : st.circular = true) : readStream st [] n = .error .emptyCircular := by
  rw [readStream, if_pos hmode, List.length_nil, if_pos rfl]

end

@[simp] theorem circularBits_length (xs : List Bool) (rd n : Nat) : (circularBits xs rd n).length = n := by
  simp [circularBits]

/-- A command whose rule ends with a read of `k` bits where `n` were asked for (R263). -/
theorem exec_of_readCompletion {i : Instr} {s t : State} {k n : Nat}
    (h : commandRule Config.params i s = .ok (readCompletion k n, t)) :
    exec i s = .next (if k < n then afterStatus (headerWord i) t 2 else afterOk t) := by
  unfold readCompletion at h
  split at h
  case isTrue hshort =>
    rw [if_pos hshort]
    exact exec_afterStatus (c := .shortRead) nofun h
  case isFalse hfull =>
    rw [if_neg hfull]
    exact exec_afterOk h

/-! ### ST_RDBITS (R263) -/

section

variable {a b : Handle} {c : IReg} {st : Stream} {xs : List Bool} {s : State}
  (ha : Holds s a (.stream st)) (hb : Vacant s b) (hxs : SourceBits s st.src xs)
include ha hb hxs

/-- ST_RDBITS refuses a count that is not positive. -/
theorem exec_stRdbits_invalidWidth (hn : (s.getI c).toInt ≤ 0) :
    exec (.stRdbits a b c) s = .next (afterFailure (.stRdbits a b c) s .invalidWidth) := by
  have hst : existing s a Obj.asStream = .ok st := existing_of_holds ha rfl
  obtain ⟨src, hsrc, rfl⟩ := resolveSource_of_sourceBits hxs
  refine exec_afterFailure ?_
  simp only [commandRule, stRdbitsRule, hst, fresh_of_vacant hb, hsrc, ok_bind,
    require_not (decide_eq_false (Int.not_lt.2 hn)), error_bind]

section

variable (hn : 0 < (s.getI c).toInt)
include hn

/-- With a positive count, ST_RDBITS reads, checks the capacity, and writes. -/
theorem stRdbitsRule_of_operands (P : Params) :
    stRdbitsRule P a b c s = (do
      let r ← readStream st xs (s.getI c).toInt.toNat
      requireElems P ((r.count + 7) / 8)
      return (readCompletion r.count (s.getI c).toInt.toNat,
        ((s.putObj b (.bytes (packBytes r.bits))).putObj a
          (.stream { st with rd := r.rd })).setRNat 0 r.count)) := by
  have hst : existing s a Obj.asStream = .ok st := existing_of_holds ha rfl
  obtain ⟨src, hsrc, rfl⟩ := resolveSource_of_sourceBits hxs
  simp only [stRdbitsRule, hst, fresh_of_vacant hb, hsrc, ok_bind, require_of (decide_eq_true hn)]

/-- ST_RDBITS raises what its read raises. -/
theorem exec_stRdbits_refused {e : Failure} (hr : readStream st xs (s.getI c).toInt.toNat = .error e) :
    exec (.stRdbits a b c) s = .next (afterFailure (.stRdbits a b c) s e) := by
  refine exec_afterFailure ?_
  rw [commandRule, stRdbitsRule_of_operands ha hb hxs hn, hr, error_bind]

/-- ST_RDBITS packs the bits read into the fresh slot where they fit, and moves the cursor. -/
theorem exec_stRdbits_read {r : StreamRead} (hr : readStream st xs (s.getI c).toInt.toNat = .ok r) :
    let t := ((s.putObj b (.bytes (packBytes r.bits))).putObj a (.stream { st with rd := r.rd })).setRNat 0
      r.count
    exec (.stRdbits a b c) s = .next
      (if Config.params.maxElems < (r.count + 7) / 8 then afterFailure (.stRdbits a b c) s .capacity
      else if r.count < (s.getI c).toInt.toNat then afterStatus (headerWord (.stRdbits a b c)) t 2
      else afterOk t) := by
  have hrule := stRdbitsRule_of_operands ha hb hxs hn Config.params
  rw [hr, ok_bind] at hrule
  split
  case isTrue hfull =>
    refine exec_afterFailure ?_
    rw [commandRule, hrule, requireElems_not hfull, error_bind]
  case isFalse hfits =>
    refine exec_of_readCompletion ?_
    rw [commandRule, hrule, requireElems_of (Nat.le_of_not_lt hfits), ok_bind]
    rfl

end

end

/-- Settles O27: the count's sign, and then what a read of the Stream's mode gives, decide how ST_RDBITS ends. -/
theorem streamReadBits : Obligations.StreamReadBits := by
  intro a b c st xs s ha hb hxs n k i
  refine ⟨fun hn hmode => ?_, fun hn hmode hne => ?_, fun hn hmode hnil => ?_,
    exec_stRdbits_invalidWidth ha hb hxs⟩
  · have hread := exec_stRdbits_read ha hb hxs hn (readStream_linear hmode)
    exact hread
  · have hread := exec_stRdbits_read ha hb hxs hn (readStream_circular hmode hne)
    simp only [Nat.lt_irrefl, if_false] at hread
    exact hread
  · subst hnil
    exact exec_stRdbits_refused ha hb hxs hn (readStream_empty hmode)

/-! ### ST_RDU and ST_RDS (R264, R265) -/

/-- Fewer elements than asked for are filled up. -/
theorem fitTo_of_length_le {α : Type} {n : Nat} {v : α} {xs : List α} (h : xs.length ≤ n) :
    fitTo n v xs = xs ++ List.replicate (n - xs.length) v := by
  rw [fitTo, List.take_of_length_le h]

/-- An integer read is an `n`-bit value. -/
theorem readValue_lt (r : StreamRead) (n : Nat) : readValue r n < 2 ^ n := by
  have hlt := natOfBits_lt (fitTo n false r.bits)
  rwa [fitTo_length] at hlt

/-- Zero-extending the `n`-bit value read does not change it (R28, R264). -/
theorem setWidth_readValue (r : StreamRead) (n : Nat) :
    (BitVec.ofNat n (readValue r n)).setWidth 64 = BitVec.ofNat 64 (readValue r n) := by
  refine BitVec.eq_of_toNat_eq ?_
  rw [BitVec.toNat_setWidth, BitVec.toNat_ofNat, BitVec.toNat_ofNat, Nat.mod_eq_of_lt (readValue_lt r n)]

section

variable {a : Handle} {b c : IReg} {st : Stream} {xs : List Bool} {s : State}
  {i : Instr} {extend : Nat → Nat → Bits64}
  (hi : commandRule Config.params i s = readIntegerRule extend a b c s)
  (ha : Holds s a (.stream st)) (hxs : SourceBits s st.src xs)
include hi ha hxs

/-- An integer read refuses a width outside 1 to 32. -/
theorem exec_readInteger_invalidWidth (hn : (s.getI c).toInt < 1 ∨ 32 < (s.getI c).toInt) :
    exec i s = .next (afterFailure i s .invalidWidth) := by
  have hst : existing s a Obj.asStream = .ok st := existing_of_holds ha rfl
  obtain ⟨src, hsrc, rfl⟩ := resolveSource_of_sourceBits hxs
  have hwidth : (decide (1 ≤ (s.getI c).toInt) && decide ((s.getI c).toInt ≤ 32)) = false := by
    simpa only [Bool.and_eq_false_iff, decide_eq_false_iff_not, Int.not_le] using hn
  refine exec_afterFailure ?_
  simp only [hi, readIntegerRule, hst, hsrc, ok_bind, require_not hwidth, error_bind]

section

variable (hlo : 1 ≤ (s.getI c).toInt) (hhi : (s.getI c).toInt ≤ 32)
include hlo hhi

/-- With a width of 1 to 32, an integer read is a read of the Stream and then the writes. -/
theorem readIntegerRule_of_operands :
    commandRule Config.params i s = (do
      let r ← readStream st xs (s.getI c).toInt.toNat
      return (readCompletion r.count (s.getI c).toInt.toNat,
        ((s.setI b (extend (s.getI c).toInt.toNat (readValue r (s.getI c).toInt.toNat))).setRNat 0
          r.count).putObj a (.stream { st with rd := r.rd }))) := by
  have hst : existing s a Obj.asStream = .ok st := existing_of_holds ha rfl
  obtain ⟨src, hsrc, rfl⟩ := resolveSource_of_sourceBits hxs
  have hwidth : (decide (1 ≤ (s.getI c).toInt) && decide ((s.getI c).toInt ≤ 32)) = true := by
    simp only [hlo, hhi, decide_true, Bool.and_self]
  simp only [hi, readIntegerRule, hst, hsrc, ok_bind, require_of hwidth]

/-- An integer read raises what its read raises. -/
theorem exec_readInteger_refused {e : Failure} (hr : readStream st xs (s.getI c).toInt.toNat = .error e) :
    exec i s = .next (afterFailure i s e) := by
  refine exec_afterFailure ?_
  rw [readIntegerRule_of_operands hi ha hxs hlo hhi, hr, error_bind]

/-- An integer read writes the value read, extended, and moves the cursor. -/
theorem exec_readInteger_read {r : StreamRead} (hr : readStream st xs (s.getI c).toInt.toNat = .ok r) :
    let t := ((s.setI b (extend (s.getI c).toInt.toNat (readValue r (s.getI c).toInt.toNat))).setRNat 0
      r.count).putObj a (.stream { st with rd := r.rd })
    exec i s = .next
      (if r.count < (s.getI c).toInt.toNat then afterStatus (headerWord i) t 2 else afterOk t) := by
  refine exec_of_readCompletion ?_
  rw [readIntegerRule_of_operands hi ha hxs hlo hhi, hr, ok_bind]
  rfl

end

end

/-- The value of a linear integer read: the bits read, then zeros (R264). -/
theorem readValue_linear {ys : List Bool} {n k rd : Nat} (hlen : ys.length = k) (hk : k ≤ n) :
    readValue ⟨k, ys, rd⟩ n = natOfBits (ys ++ List.replicate (n - k) false) := by
  rw [readValue, fitTo_of_length_le (hlen ▸ hk), hlen]

/-- The value of a circular integer read, which is whole (R262, R264). -/
theorem readValue_circular (xs : List Bool) (rd n rd' : Nat) :
    readValue ⟨n, circularBits xs rd n, rd'⟩ n = natOfBits (circularBits xs rd n) := by
  rw [readValue_linear (circularBits_length xs rd n) (Nat.le_refl n), Nat.sub_self, List.replicate_zero,
    List.append_nil]

/-- Settles O28: both commands are the shared rule with their own extension; its width, and then what a read of
the Stream's mode gives, decide how it ends. -/
theorem streamReadIntegers : Obligations.StreamReadIntegers := by
  intro a b c st xs s ha hxs n k v done
  have hu : commandRule Config.params (.stRdu a b c) s =
      readIntegerRule (fun _ v => BitVec.ofNat 64 v) a b c s := rfl
  have hs : commandRule Config.params (.stRds a b c) s = readIntegerRule signExtendNat a b c s := rfl
  refine ⟨fun hlo hhi hmode => ?_, fun hlo hhi hmode hne => ?_, fun hlo hhi hmode hnil => ?_, fun hn => ?_⟩
  · have hr := readStream_linear (xs := xs) (n := n) hmode
    have hru := exec_readInteger_read hu ha hxs hlo hhi hr
    have hrs := exec_readInteger_read hs ha hxs hlo hhi hr
    have hk : ((xs.drop st.rd).take k).length = k := by
      simp only [k, List.length_take, List.length_drop]
      omega
    rw [← setWidth_readValue, readValue_linear hk (Nat.min_le_left _ _)] at hru
    rw [signExtendNat, readValue_linear hk (Nat.min_le_left _ _)] at hrs
    exact ⟨hru, hrs⟩
  · have hr := readStream_circular (n := (s.getI c).toInt.toNat) hmode hne
    have hru := exec_readInteger_read hu ha hxs hlo hhi hr
    have hrs := exec_readInteger_read hs ha hxs hlo hhi hr
    rw [← setWidth_readValue, readValue_circular] at hru
    rw [signExtendNat, readValue_circular] at hrs
    simp only [Nat.lt_irrefl, if_false] at hru hrs
    exact ⟨hru, hrs⟩
  · subst hnil
    exact ⟨exec_readInteger_refused hu ha hxs hlo hhi (readStream_empty hmode),
      exec_readInteger_refused hs ha hxs hlo hhi (readStream_empty hmode)⟩
  · exact ⟨exec_readInteger_invalidWidth hu ha hxs hn, exec_readInteger_invalidWidth hs ha hxs hn⟩

end Sys2Proof.Machine
end

section
/-! PROOFS. Sequences of reads and of fields: BitIO is lossless (R269), and a circular Stream repeats its source
(R270). -/

namespace Sys2Proof.Machine

/-! ### Slices of a bit list (R269) -/

/-- Slices whose widths add up to the list's length make up the list. -/
theorem flatten_slicesOf {xs : List Bool} {ws : List Nat} (hsum : ws.sum = xs.length) :
    (slicesOf xs ws).flatten = xs := by
  induction ws generalizing xs with
  | nil => exact (List.length_eq_zero_iff.1 hsum.symm).symm
  | cons w ws ih =>
    have hrest : ws.sum = (xs.drop w).length := by
      rw [List.sum_cons] at hsum
      rw [List.length_drop]
      omega
    rw [slicesOf, List.flatten_cons, ih hrest, List.take_append_drop]

/-- A linear Stream with enough bits left is read in consecutive slices, each read complete. -/
theorem readSequence_linear {src : Handle} {xs : List Bool} {rd : Nat} {ws : List Nat}
    (hsum : rd + ws.sum ≤ xs.length) :
    ∃ rs, readSequence xs ⟨src, false, rd⟩ ws = .ok rs ∧
      rs.map StreamRead.bits = slicesOf (xs.drop rd) ws ∧ rs.map StreamRead.count = ws := by
  induction ws generalizing rd with
  | nil => exact ⟨[], rfl, rfl, rfl⟩
  | cons w ws ih =>
    rw [List.sum_cons] at hsum
    have hread : readStream ⟨src, false, rd⟩ xs w = .ok ⟨w, (xs.drop rd).take w, rd + w⟩ := by
      rw [readStream_linear rfl, Nat.min_eq_left (by change w ≤ xs.length - rd; omega)]
    obtain ⟨rs, hrs, hbits, hcount⟩ := ih (rd := rd + w) (by omega)
    refine ⟨⟨w, (xs.drop rd).take w, rd + w⟩ :: rs, ?_, ?_, ?_⟩
    · simp only [readSequence, hread, hrs, ok_bind]
      rfl
    · rw [List.map_cons, hbits, slicesOf, List.drop_drop]
    · rw [List.map_cons, hcount]

/-! ### Fields and bytes written back (R251, R253, R254) -/

/-- The field of a bit list's number, as wide as the list, is the list. -/
theorem fieldBits_natOfBits (xs : List Bool) : fieldBits (natOfBits xs) xs.length = xs := by
  refine List.ext_getElem (fieldBits_length _ _) fun i _ hi => ?_
  have hbit := natOfBits_testBit xs hi
  simpa only [fieldBits, List.getElem_map, List.getElem_range, List.getD_eq_getElem _ _ hi] using hbit

theorem byteOf_byteBits (b : Byte) : byteOf (byteBits b) = b := by
  refine BitVec.eq_of_getLsbD_eq fun i hi => ?_
  have hbit := byteOf_getLsbD (xs := byteBits b) rfl (i := 7 - i) (by omega)
  rwa [List.getD_eq_getElem?_getD, byteBits_getElem? b (by omega), Option.getD_some,
    Nat.sub_sub_self (by omega)] at hbit

/-- Packing begins with the byte whose bits come first. -/
theorem packBytes_byteBits_append (b : Byte) (xs : List Bool) :
    packBytes (byteBits b ++ xs) = b :: packBytes xs := by
  have hlen : (byteBits b).length = 8 := rfl
  have hgroups : ((byteBits b ++ xs).length + 7) / 8 = (xs.length + 7) / 8 + 1 := by
    rw [List.length_append, hlen]
    omega
  have hfit : fitTo 8 false (byteBits b) = byteBits b := fitTo_of_length_le (Nat.le_of_eq hlen)
  rw [packBytes, hgroups, packGroups, List.take_left' hlen, List.drop_left' hlen, hfit, byteOf_byteBits, packBytes]

/-- The byte-aligned form of a byte list's bits is the byte list. -/
theorem packBytes_bytesToBits (bs : List Byte) : packBytes (bytesToBits bs) = bs := by
  induction bs with
  | nil => rfl
  | cons b bs ih => rw [bytesToBits, List.flatMap_cons, ← bytesToBits, packBytes_byteBits_append, ih]

/-- Settles O29: both the reads and the fields are the slices of the source's bits, which make up those bits. -/
theorem bitioRoundTrip : Obligations.BitioRoundTrip := by
  intro src bs ws hsum
  have hslices : (slicesOf (bytesToBits bs) ws).flatten = bytesToBits bs :=
    flatten_slicesOf (hsum.trans (bytesToBits_length bs).symm)
  constructor
  · obtain ⟨rs, hrs, hbits, hcount⟩ := readSequence_linear (src := src) (xs := bytesToBits bs) (rd := 0)
      (ws := ws) (by rw [bytesToBits_length]; omega)
    exact ⟨rs, hrs, by rw [List.flatMap_def, hbits, List.drop_zero, hslices], hcount⟩
  · simp only [fieldBits_natOfBits, List.flatMap_id', hslices, packBytes_bytesToBits]

/-! ### Periodicity (R270) -/

/-- The reads of a circular Stream by `n` bits at a time, each beginning where the one before it ended. -/
theorem readSequence_circular {xs : List Bool} (hne : xs ≠ []) (src : Handle) (n m rd : Nat) :
    readSequence xs ⟨src, true, rd⟩ (List.replicate m n) =
      .ok ((List.range m).map fun j => ⟨n, circularBits xs (rd + j * n) n, rd + (j + 1) * n⟩) := by
  induction m generalizing rd with
  | zero => rfl
  | succ m ih =>
    have hnext : ∀ j, rd + n + j * n = rd + (j + 1) * n := fun j => by ring
    rw [List.replicate_succ, readSequence, readStream_circular rfl hne, ok_bind, ih, ok_bind,
      List.range_succ_eq_map, List.map_cons, List.map_map]
    simp only [hnext, Function.comp_def, Nat.zero_mul, Nat.zero_add, Nat.one_mul, Nat.add_zero]
    rfl

/-- Settles O30: from cursor 0, the `j`-th read begins at `j * n`. -/
theorem circularPeriodicity : Obligations.CircularPeriodicity := by
  intro src xs n m hne
  refine ⟨_, readSequence_circular hne src n m 0, by rw [List.length_map, List.length_range], fun j h => ?_⟩
  rw [List.getElem_map, List.getElem_range, Nat.zero_add, circularBits]

end Sys2Proof.Machine
end

section
/-! PROOFS. The Tracker commands TRK_NEW, TRK_NEXT and TRK_TOLIST (R300 to R302): the width check they share,
and what each makes of its source's bits. -/

namespace Sys2Proof.Machine

/-! ### The width of a symbol (R300) -/

/-- A width of 1 to 8 passes. -/
theorem requireSymbolWidth_of {w : Int} (hlo : 1 ≤ w) (hhi : w ≤ 8) :
    require (1 ≤ w && w ≤ 8) .invalidWidth = .ok () :=
  require_of (by simp only [hlo, hhi, decide_true, Bool.and_self])

/-- A width outside 1 to 8 raises. -/
theorem requireSymbolWidth_not {w : Int} (h : w < 1 ∨ 8 < w) :
    require (1 ≤ w && w ≤ 8) .invalidWidth = .error .invalidWidth :=
  require_not (by simpa only [Bool.and_eq_false_iff, decide_eq_false_iff_not, Int.not_le] using h)

/-! ### TRK_NEW and TRK_TOLIST (R300, R302) -/

section

variable {a b : Handle} {c : IReg} {s : State} {xs : List Bool} (ha : Vacant s a) (hb : SourceBits s b xs)
include ha hb

/-- TRK_NEW refuses a width outside 1 to 8. -/
theorem exec_trkNew_invalidWidth (hw : (s.getI c).toInt < 1 ∨ 8 < (s.getI c).toInt) :
    exec (.trkNew a b c) s = .next (afterFailure (.trkNew a b c) s .invalidWidth) := by
  obtain ⟨src, hsrc, -⟩ := existing_of_sourceBits hb
  refine exec_afterFailure ?_
  simp only [commandRule, trkNewRule, fresh_of_vacant ha, hsrc, ok_bind, requireSymbolWidth_not hw,
    error_bind]

/-- TRK_TOLIST refuses a width outside 1 to 8. -/
theorem exec_trkTolist_invalidWidth (hw : (s.getI c).toInt < 1 ∨ 8 < (s.getI c).toInt) :
    exec (.trkTolist a b c) s = .next (afterFailure (.trkTolist a b c) s .invalidWidth) := by
  obtain ⟨src, hsrc, -⟩ := existing_of_sourceBits hb
  refine exec_afterFailure ?_
  simp only [commandRule, trkTolistRule, fresh_of_vacant ha, hsrc, ok_bind, requireSymbolWidth_not hw,
    error_bind]

section

variable (hlo : 1 ≤ (s.getI c).toInt) (hhi : (s.getI c).toInt ≤ 8)
include hlo hhi

/-- TRK_NEW makes a Tracker at the source's first bit. -/
theorem exec_trkNew_made :
    exec (.trkNew a b c) s =
      .next (afterOk (s.putObj a (.tracker ⟨b, (s.getI c).toInt.toNat, 0⟩))) := by
  obtain ⟨src, hsrc, -⟩ := existing_of_sourceBits hb
  refine exec_afterOk ?_
  simp only [commandRule, trkNewRule, fresh_of_vacant ha, hsrc, ok_bind, requireSymbolWidth_of hlo hhi, done]

/-- With a width of 1 to 8, TRK_TOLIST checks the capacity for the whole symbols and writes them. -/
theorem trkTolistRule_of_operands (P : Params) :
    trkTolistRule P a b c s = (do
      requireElems P (xs.length / (s.getI c).toInt.toNat)
      done ((s.putObj a (.symbols (symbolsOf xs (s.getI c).toInt.toNat))).setRNat 0
        (xs.length / (s.getI c).toInt.toNat))) := by
  obtain ⟨src, hsrc, rfl⟩ := existing_of_sourceBits hb
  simp only [trkTolistRule, fresh_of_vacant ha, hsrc, ok_bind, requireSymbolWidth_of hlo hhi]

/-- TRK_TOLIST lists every whole symbol where they fit. -/
theorem exec_trkTolist_listed (hfits : xs.length / (s.getI c).toInt.toNat ≤ Config.params.maxElems) :
    exec (.trkTolist a b c) s = .next (afterOk
      ((s.putObj a (.symbols (symbolsOf xs (s.getI c).toInt.toNat))).setRNat 0
        (xs.length / (s.getI c).toInt.toNat))) := by
  refine exec_afterOk ?_
  rw [commandRule, trkTolistRule_of_operands ha hb hlo hhi, requireElems_of hfits, ok_bind, done]

/-- TRK_TOLIST raises `CAPACITY` where the whole symbols do not fit. -/
theorem exec_trkTolist_full (hfull : Config.params.maxElems < xs.length / (s.getI c).toInt.toNat) :
    exec (.trkTolist a b c) s = .next (afterFailure (.trkTolist a b c) s .capacity) := by
  refine exec_afterFailure ?_
  rw [commandRule, trkTolistRule_of_operands ha hb hlo hhi, requireElems_not hfull, error_bind]

end

end

/-! ### TRK_NEXT (R301) -/

section

variable {a : Handle} {r : IReg} {tr : Tracker} {s : State} {xs : List Bool} (ha : Holds s a (.tracker tr))
  (hxs : SourceBits s tr.src xs)
include ha hxs

/-- TRK_NEXT gives the next symbol where its bits are left, down to exactly the last of them. -/
theorem exec_trkNext_symbol (hleft : tr.rd + tr.bps ≤ xs.length) :
    exec (.trkNext a r) s = .next (afterOk
      (((s.setI r (BitVec.ofNat 64 (natOfBits ((xs.drop tr.rd).take tr.bps)))).putObj a
        (.tracker { tr with rd := tr.rd + tr.bps })).setR 0 1)) := by
  have htr : existing s a Obj.asTracker = .ok tr := existing_of_holds ha rfl
  obtain ⟨src, hsrc, rfl⟩ := resolveSource_of_sourceBits hxs
  refine exec_afterOk ?_
  simp only [commandRule, trkNextRule, htr, hsrc, ok_bind, if_pos hleft, done]

/-- TRK_NEXT discards a partial symbol: the cursor ends at the source's end, and `I[B]` stays. -/
theorem exec_trkNext_discarded (hshort : xs.length < tr.rd + tr.bps) :
    exec (.trkNext a r) s = .next (afterStatus (headerWord (.trkNext a r))
      ((s.putObj a (.tracker { tr with rd := max tr.rd xs.length })).setR 0 0) 2) := by
  have htr : existing s a Obj.asTracker = .ok tr := existing_of_holds ha rfl
  obtain ⟨src, hsrc, rfl⟩ := resolveSource_of_sourceBits hxs
  refine exec_afterStatus (c := .shortRead) nofun ?_
  simp only [commandRule, trkNextRule, htr, hsrc, ok_bind, if_neg (Nat.not_le.2 hshort)]
  rfl

end

/-- Settles O31: the width, and then the capacity, decide TRK_NEW and TRK_TOLIST, whose list is `symbolsOf` the
source's bits; whether `bps` bits are left decides TRK_NEXT. -/
theorem trackerCommands : Obligations.TrackerCommands := fun _ _ _ _ _ _ =>
  ⟨exec_trkNew_made, fun _ => exec_trkNext_symbol, fun _ => exec_trkNext_discarded, exec_trkTolist_listed,
    exec_trkTolist_full,
    fun ha hb hw => ⟨exec_trkNew_invalidWidth ha hb hw, exec_trkTolist_invalidWidth ha hb hw⟩⟩

end Sys2Proof.Machine
end

section
/-! PROOFS. The Manchester code (R321 to R323): what the encoder writes and what the decoder gives, position by
position. -/

namespace Sys2Proof.Machine

/-! ### Bits packed and read back (R254) -/

/-- The bits of packed bytes are the bits that were packed, and then the padding. -/
theorem bytesToBits_packBytes_getElem? {xs : List Bool} {j : Nat} (hj : j < 8 * (packBytes xs).length) :
    (bytesToBits (packBytes xs))[j]? = some (xs.getD j false) := by
  have hbyte : j / 8 < (packBytes xs).length := by omega
  have hread := bytesToBits_getElem? (packBytes xs) (Nat.mod_lt j (by decide)) (j / 8)
  rwa [Nat.div_add_mod, List.getElem?_eq_getElem hbyte, Option.map_some,
    packBytes_getLsbD (List.getElem?_eq_getElem hbyte) (Nat.mod_lt j (by decide)), Nat.div_add_mod] at hread

/-- Whole groups of eight bits are packed without padding. -/
theorem bytesToBits_packBytes {xs : List Bool} (h : 8 ∣ xs.length) : bytesToBits (packBytes xs) = xs := by
  have hlen : (bytesToBits (packBytes xs)).length = xs.length := by
    rw [bytesToBits_length, packBytes_length]
    omega
  refine List.ext_getElem hlen fun j hj hx => ?_
  rw [← List.getD_eq_getElem xs false hx, ← Option.some.injEq, ← List.getElem?_eq_getElem hj]
  exact bytesToBits_packBytes_getElem? (bytesToBits_length _ ▸ hj)

/-! ### Encoding (R321) -/

/-- Blocks of one length are together as long as that length times their number. -/
theorem flatMap_length_of_blocks {α β : Type} {f : α → List β} {n : Nat} (hf : ∀ x, (f x).length = n)
    (xs : List α) : (xs.flatMap f).length = n * xs.length := by
  simp [List.length_flatMap, hf, Nat.mul_comm]

@[simp] theorem flatMap_manchesterPair_length (xs : List Bool) :
    (xs.flatMap manchesterPair).length = 2 * xs.length :=
  flatMap_length_of_blocks (f := manchesterPair) (fun _ => rfl) xs

/-- The code has two bytes for each. -/
@[simp] theorem manEnc_length (bs : List Byte) : (manEnc bs).length = 2 * bs.length := by
  rw [manEnc, packBytes_length, flatMap_manchesterPair_length, bytesToBits_length]
  omega

/-- The code's bits are the pairs written, without padding. -/
theorem bytesToBits_manEnc (bs : List Byte) :
    bytesToBits (manEnc bs) = (bytesToBits bs).flatMap manchesterPair := by
  refine bytesToBits_packBytes ?_
  rw [flatMap_manchesterPair_length, bytesToBits_length]
  omega

/-- Settles O37: the pairs fill whole bytes, so packing them adds nothing. -/
theorem manchesterEncoding : Obligations.ManchesterEncoding := by
  have hpair : manchesterPair = fun x => if x then [true, false] else [false, true] := by
    funext x
    cases x <;> rfl
  exact ⟨fun bs => ⟨manEnc_length bs, hpair ▸ bytesToBits_manEnc bs⟩, by decide⟩

/-! ### Decoding (R322) -/

/-- The `i`-th pair of a bit list is neither `10` nor `01`. -/
def likePair (xs : List Bool) (i : Nat) : Bool := xs.getD (2 * i) false == xs.getD (2 * i + 1) false

/-- What the `i`-th pair decodes to: its first bit, or 1 where the pair's bits are alike. -/
def decodedBit (xs : List Bool) (i : Nat) : Bool := xs.getD (2 * i) false || likePair xs i

/-- One pair decodes to one bit, and is reported where its bits are alike. -/
theorem manDecBits_cons_cons (j : Nat) (x y : Bool) (xs : List Bool) :
    manDecBits j (x :: y :: xs) = ((x || x == y) :: (manDecBits (j + 1) xs).1,
      if x == y then j :: (manDecBits (j + 1) xs).2 else (manDecBits (j + 1) xs).2) := by
  cases x <;> cases y <;> rfl

/-- The decoder decodes every pair, and reports the pairs of like bits in order. -/
theorem manDecBits_eq (j : Nat) (xs : List Bool) :
    manDecBits j xs = ((List.range (xs.length / 2)).map (decodedBit xs),
      ((List.range (xs.length / 2)).filter (likePair xs)).map (j + ·)) := by
  induction xs using List.twoStepInduction generalizing j with
  | nil => rfl
  | singleton x => simp [manDecBits]
  | cons_cons x y xs ih =>
    have hlen : (x :: y :: xs).length / 2 = xs.length / 2 + 1 := Nat.add_div_right _ Nat.two_pos
    have hlike : likePair (x :: y :: xs) ∘ Nat.succ = likePair xs := rfl
    have hbit : decodedBit (x :: y :: xs) ∘ Nat.succ = decodedBit xs := rfl
    have hfirst : likePair (x :: y :: xs) 0 = (x == y) := rfl
    have hshift : (j + ·) ∘ Nat.succ = (j + 1 + ·) := funext fun i => by
      simp only [Function.comp_apply]
      omega
    rw [manDecBits_cons_cons, ih, hlen, List.range_succ_eq_map, List.map_cons, List.map_map, hbit,
      List.filter_cons, hfirst, List.filter_map, hlike]
    refine Prod.ext rfl ?_
    split
    · rw [List.map_cons, List.map_map, hshift, Nat.add_zero]
      rfl
    · rw [List.map_map, hshift]

/-- A byte of code has four pairs. -/
theorem manDec_eq (bs : List Byte) :
    manDec bs = (packBytes ((List.range (4 * bs.length)).map (decodedBit (bytesToBits bs))),
      (List.range (4 * bs.length)).filter (likePair (bytesToBits bs))) := by
  have hpairs : (bytesToBits bs).length / 2 = 4 * bs.length := by
    rw [bytesToBits_length]
    omega
  simp only [manDec, manDecBits_eq, hpairs, Nat.zero_add, List.map_id']

/-- A last half byte of output counts as a byte. -/
@[simp] theorem manDec_out_length (bs : List Byte) : (manDec bs).1.length = (bs.length + 1) / 2 := by
  rw [manDec_eq, packBytes_length, List.length_map, List.length_range]
  omega

/-- The positions reported are those of the pairs of like bits. -/
theorem mem_manDec_bad {bs : List Byte} {j : Nat} :
    j ∈ (manDec bs).2 ↔ j < 4 * bs.length ∧ likePair (bytesToBits bs) j = true := by
  rw [manDec_eq, List.mem_filter, List.mem_range]

/-- The positions are reported once and in order. -/
theorem manDec_bad_ascending (bs : List Byte) : (manDec bs).2.Pairwise (· < ·) := by
  rw [manDec_eq]
  exact List.pairwise_lt_range.filter _

/-- The output's bits are the pairs decoded, and then the padding of a last half byte. -/
theorem manDec_out_bit {bs : List Byte} {j : Nat} (hj : j < 8 * (manDec bs).1.length) :
    (bytesToBits (manDec bs).1)[j]? = some (decide (j < 4 * bs.length) && decodedBit (bytesToBits bs) j) := by
  rw [manDec_eq] at hj ⊢
  rw [bytesToBits_packBytes_getElem? hj, List.getD_eq_getElem?_getD, List.getElem?_map]
  by_cases hpair : j < 4 * bs.length
  · rw [List.getElem?_range hpair, decide_eq_true hpair, Bool.true_and]
    rfl
  · rw [List.getElem?_eq_none (by rw [List.length_range]; omega), decide_eq_false hpair, Bool.false_and]
    rfl

/-! ### The round trip (R323) -/

/-- Every pair written decodes to the bit it was written for, and none is reported. -/
theorem manDecBits_flatMap_manchesterPair (j : Nat) (xs : List Bool) :
    manDecBits j (xs.flatMap manchesterPair) = (xs, []) := by
  induction xs generalizing j with
  | nil => rfl
  | cons x xs ih =>
    rw [List.flatMap_cons, manchesterPair, List.cons_append, List.cons_append, List.nil_append,
      manDecBits_cons_cons, ih]
    cases x <;> rfl

/-- Settles O36: the decoder reads back the pairs the encoder wrote, and a pair of like bits decodes to 1. -/
theorem manchesterLaws : Obligations.ManchesterLaws := by
  refine ⟨fun bs => ?_, fun bs j hj hlike => ?_⟩
  · simp only [manDec, bytesToBits_manEnc, manDecBits_flatMap_manchesterPair, packBytes_bytesToBits]
  · have hpair : likePair (bytesToBits bs) j = true := by
      simp only [likePair, List.getD_eq_getElem?_getD, hlike, beq_self_eq_true]
    have hbit : j < 8 * (manDec bs).1.length := by
      rw [manDec_out_length]
      omega
    rw [manDec_out_bit hbit, decodedBit, hpair, decide_eq_true hj, Bool.or_true]
    exact ⟨rfl, mem_manDec_bad.2 ⟨hj, hpair⟩⟩

end Sys2Proof.Machine
end

section
/-! PROOFS. The codec commands: CODEC_MAN, CODEC_RS and CODEC_INFO (R320, R330, R342), CODEC_ENC of both kinds
(R331, R340), and CODEC_DEC of a Manchester codec with the mask it writes (R341). -/

namespace Sys2Proof.Machine

/-! ### Making and reporting codecs (R320, R330, R342) -/

section

variable {a : Handle} {b c : IReg} {s : State}

/-- CODEC_MAN makes a codec of two bits for one (R320). -/
theorem exec_codecMan (ha : Vacant s a) :
    exec (.codecMan a) s = .next (afterOk (s.putObj a (.codec ⟨.manchester, 2, 1⟩))) := by
  refine exec_afterOk ?_
  simp only [commandRule, codecManRule, fresh_of_vacant ha, ok_bind, done]

/-- The lengths of a Reed-Solomon codec are positive multiples of 8 (R330). -/
theorem rsLengthsLegal_iff {bl ml : Int} :
    rsLengthsLegal bl ml = true ↔ 0 < bl ∧ 0 < ml ∧ bl % 8 = 0 ∧ ml % 8 = 0 := by
  simp only [rsLengthsLegal, Bool.and_eq_true, decide_eq_true_eq, and_assoc]

/-- CODEC_RS refuses other lengths before it asks the port (R330). -/
theorem exec_codecRs_refused (ha : Vacant s a)
    (h : rsLengthsLegal (s.getI b).toInt (s.getI c).toInt = false) :
    exec (.codecRs a b c) s = .next (afterFailure (.codecRs a b c) s .configurationError) := by
  refine exec_afterFailure ?_
  simp only [commandRule, codecRsRule, fresh_of_vacant ha, ok_bind, require_not h, error_bind]

/-- With legal lengths, the port's acceptance decides CODEC_RS (R330). -/
theorem exec_codecRs_legal (ha : Vacant s a)
    (h : rsLengthsLegal (s.getI b).toInt (s.getI c).toInt = true) :
    exec (.codecRs a b c) s = .next
      (if Config.params.rsAccepts ((s.getI b).toInt.toNat / 8) ((s.getI c).toInt.toNat / 8) = true
        then afterOk (s.putObj a (.codec ⟨.rs, (s.getI b).toInt.toNat, (s.getI c).toInt.toNat⟩))
        else afterFailure (.codecRs a b c) s .constructionError) := by
  split
  case isTrue haccepts =>
    refine exec_afterOk ?_
    simp only [commandRule, codecRsRule, fresh_of_vacant ha, ok_bind, require_of h, require_of haccepts, done]
  case isFalse hrefuses =>
    refine exec_afterFailure ?_
    simp only [commandRule, codecRsRule, fresh_of_vacant ha, ok_bind, require_of h,
      require_not (Bool.not_eq_true _ ▸ hrefuses), error_bind]

/-- CODEC_INFO reports the lengths in bits and the kind's code (R342). -/
theorem exec_codecInfo {cd : Codec} (ha : Holds s a (.codec cd)) :
    exec (.codecInfo a) s = .next (afterOk
      (((s.setRNat 0 cd.blockLength).setRNat 1 cd.messageLength).setR 2 cd.ckind.code)) := by
  have hcodec : existing s a Obj.asCodec = .ok cd := existing_of_holds ha rfl
  refine exec_afterOk ?_
  simp only [commandRule, codecInfoRule, hcodec, ok_bind, done]

end

theorem CodecKind.code_eq (k : CodecKind) : k.code = if k = .manchester then 0 else 1 := by
  cases k <;> rfl

/-- Settles O32: a fresh slot leaves CODEC_RS its lengths and then the port to ask, and the others nothing. -/
theorem codecObjects : Obligations.CodecObjects := by
  refine fun a b c s => ⟨exec_codecMan, fun ha hbl hml hbl8 hml8 => ?_, fun ha hbad => ?_, fun cd ha => ?_⟩
  · exact exec_codecRs_legal ha (rsLengthsLegal_iff.2 ⟨hbl, hml, hbl8, hml8⟩)
  · refine exec_codecRs_refused ha ?_
    rw [← Bool.not_eq_true, rsLengthsLegal_iff]
    omega
  · rw [← CodecKind.code_eq]
    exact exec_codecInfo ha

/-! ### A Reed-Solomon code, block by block (R331) -/

/-- Of consecutive blocks of one length, block `j` begins at `j` times that length. -/
theorem blockAt_flatMap {α β : Type} {f : α → List β} {n : Nat} (hf : ∀ x, (f x).length = n) (xs : List α)
    {j : Nat} (hj : j < xs.length) : blockAt (xs.flatMap f) n j = f xs[j] := by
  induction xs generalizing j with
  | nil => cases hj
  | cons x xs ih =>
    rw [List.flatMap_cons, blockAt]
    cases j with
    | zero => rw [Nat.zero_mul, List.drop_zero, List.take_left' (hf x), List.getElem_cons_zero]
    | succ j =>
      rw [Nat.succ_mul, Nat.add_comm, ← List.drop_drop, List.drop_left' (hf x), List.getElem_cons_succ]
      exact ih (Nat.lt_of_succ_lt_succ hj)

section

variable (P : Params) (n k : Nat) (bs : List Byte)

theorem rsEnc_length : (rsEnc P n k bs).length = n * ((bs.length + k - 1) / k) := by
  rw [rsEnc, flatMap_length_of_blocks fun _ => rsEncode_length .., List.length_range]

/-- Block `j` of the code is the codec's for the `j`-th message block, padded. -/
theorem blockAt_rsEnc {j : Nat} (hj : j < (bs.length + k - 1) / k) :
    blockAt (rsEnc P n k bs) n j = rsEncode P n k (padBytes k (blockAt bs k j)) := by
  rw [rsEnc, blockAt_flatMap (fun _ => rsEncode_length ..) _ (by rwa [List.length_range]), List.getElem_range]

end

/-! ### CODEC_ENC (R340) -/

section

variable {a b c : Handle} {cd : Codec} {bs out : List Byte} {s : State} (ha : Vacant s a)
  (hb : Holds s b (.codec cd)) (hc : Holds s c (.bytes bs)) (hout : encodeBytes Config.params cd bs = out)
include ha hb hc hout

/-- Once its operands have passed, CODEC_ENC checks the capacity and writes. -/
theorem codecEncRule_of_operands :
    codecEncRule Config.params a b c s = (do
      requireElems Config.params out.length
      done ((s.putObj a (.bytes out)).setRNat 0 out.length)) := by
  have hcodec : existing s b Obj.asCodec = .ok cd := existing_of_holds hb rfl
  have hbytes : existing s c Obj.asBytes = .ok bs := existing_of_holds hc rfl
  simp only [codecEncRule, fresh_of_vacant ha, hcodec, hbytes, ok_bind, hout]

/-- CODEC_ENC writes a code that fits, and its number of bytes. -/
theorem exec_codecEnc_encoded (hfits : out.length ≤ Config.params.maxElems) :
    exec (.codecEnc a b c) s = .next (afterOk ((s.putObj a (.bytes out)).setRNat 0 out.length)) := by
  refine exec_afterOk ?_
  rw [commandRule, codecEncRule_of_operands ha hb hc hout, requireElems_of hfits, ok_bind, done]

/-- CODEC_ENC refuses a code that does not fit (R200). -/
theorem exec_codecEnc_full (hfull : Config.params.maxElems < out.length) :
    exec (.codecEnc a b c) s = .next (afterFailure (.codecEnc a b c) s .capacity) := by
  refine exec_afterFailure ?_
  rw [commandRule, codecEncRule_of_operands ha hb hc hout, requireElems_not hfull, error_bind]

end

theorem encodeBytes_manchester {P : Params} {cd : Codec} (hman : cd.ckind = .manchester) (bs : List Byte) :
    encodeBytes P cd bs = manEnc bs := by
  simp only [encodeBytes, hman]

theorem encodeBytes_rs {P : Params} {cd : Codec} (hrs : cd.ckind = .rs) (bs : List Byte) :
    encodeBytes P cd bs = rsEnc P (cd.blockLength / 8) (cd.messageLength / 8) bs := by
  simp only [encodeBytes, hrs]

/-- Settles O33: the codec's kind gives the code, whose length decides whether it is written. -/
theorem encoding : Obligations.Encoding := by
  intro a b c cd bs s ha hb hc
  refine ⟨fun hman hfits => ?_, fun hman hfull => ?_, fun hrs => ?_⟩
  · rw [← manEnc_length] at hfits ⊢
    exact exec_codecEnc_encoded ha hb hc (encodeBytes_manchester hman bs) hfits
  · rw [← manEnc_length] at hfull
    exact exec_codecEnc_full ha hb hc (encodeBytes_manchester hman bs) hfull
  · intro n k q
    have hout := encodeBytes_rs (P := Config.params) hrs bs
    have hlen : (rsEnc Config.params n k bs).length = n * q := rsEnc_length ..
    refine ⟨fun hfits => ⟨rsEnc Config.params n k bs, ?_, hlen, fun j hj => blockAt_rsEnc _ n k bs hj⟩,
      fun hfull => ?_⟩
    · rw [← hlen] at hfits ⊢
      exact exec_codecEnc_encoded ha hb hc hout hfits
    · rw [← hlen] at hfull
      exact exec_codecEnc_full ha hb hc hout hfull

/-! ### The mask of a Manchester decode (R341) -/

/-- A flag of a list grown with unset flags is as it was before. -/
theorem getD_append_replicate_false (xs : List Bool) (n q : Nat) :
    (xs ++ List.replicate n false).getD q false = xs.getD q false := by
  rcases Nat.lt_or_ge q xs.length with hq | hq
  · exact List.getD_append _ _ _ _ hq
  · rw [List.getD_append_right _ _ _ _ hq, List.getD_eq_default _ _ hq,
      List.getD_eq_getElem?_getD, List.getElem?_getD_replicate_default_eq]

/-- The flags set after marking the bytes of the given positions, all within the mask. -/
theorem foldl_set_getD {bad : List Nat} {m : List Bool} (hbad : ∀ j ∈ bad, j / 8 < m.length) (q : Nat) :
    (bad.foldl (fun m j => m.set (j / 8) true) m).getD q false = true ↔
      m.getD q false = true ∨ ∃ j ∈ bad, j / 8 = q := by
  induction bad generalizing m with
  | nil => simp
  | cons i bad ih =>
    obtain ⟨hi, hrest⟩ := List.forall_mem_cons.1 hbad
    have hset : (m.set (i / 8) true).getD q false = true ↔ m.getD q false = true ∨ i / 8 = q := by
      rw [List.getD_eq_getElem?_getD, List.getElem?_set]
      split
      case isTrue hq => simp [← hq, hi]
      case isFalse hq => simp [hq]
    have hrest : ∀ j ∈ bad, j / 8 < (m.set (i / 8) true).length := by rwa [List.length_set]
    rw [List.foldl_cons, ih hrest, hset, List.exists_mem_cons_iff, or_assoc]

/-- A flag is set after a decode where it was before, or where its output byte holds a position reported. -/
theorem markMask_getD {mk : List Bool} {n : Nat} {bad : List Nat} (hbad : ∀ j ∈ bad, j / 8 < n) (q : Nat) :
    (markMask mk n bad).getD q false = true ↔ mk.getD q false = true ∨ ∃ j ∈ bad, j / 8 = q := by
  have hgrown : ∀ j ∈ bad, j / 8 < (mk ++ List.replicate (n - mk.length) false).length := fun j hj => by
    have hj := hbad j hj
    rw [List.length_append, List.length_replicate]
    omega
  rw [markMask, foldl_set_getD hgrown, getD_append_replicate_false]

/-- Every position reported lies in an output byte. -/
theorem manDec_bad_lt {bs : List Byte} {j : Nat} (hj : j ∈ (manDec bs).2) : j / 8 < (manDec bs).1.length := by
  have hpair := (mem_manDec_bad.1 hj).1
  rw [manDec_out_length]
  omega

/-! ### CODEC_DEC of a Manchester codec (R341) -/

/-- The state a Manchester decode leaves: the mask, where there is one, the output, and the two counts. -/
def manchesterDecoded (s : State) (a d : Handle) (bs : List Byte) (mk : Option (List Bool)) : State :=
  (((putMask s d (mk.map fun xs => markMask xs (manDec bs).1.length (manDec bs).2)).putObj a
    (.bytes (manDec bs).1)).setRNat 0 (manDec bs).2.length).setRNat 1 (4 * bs.length)

section

variable {a b c d : Handle} {cd : Codec} {bs : List Byte} {mk : Option (List Bool)} {s : State}
  (ha : Vacant s a) (hb : Holds s b (.codec cd)) (hman : cd.ckind = .manchester) (hc : Holds s c (.bytes bs))
  (hd : OptionalMask s d mk)
include ha hb hman hc hd

/-- A Manchester codec decodes every code, so CODEC_DEC checks only the capacity. -/
theorem codecDecRule_manchester (P : Params) :
    codecDecRule P a b c d s = (do
      requireElems P ((bs.length + 1) / 2)
      return (if 0 < (manDec bs).2.length then .decodeRecovered else .ok, manchesterDecoded s a d bs mk)) := by
  have hdec : decodeBytes P cd bs mk = .ok ⟨(manDec bs).1, (manDec bs).2.length, 4 * bs.length,
      mk.map fun xs => markMask xs (manDec bs).1.length (manDec bs).2⟩ := by
    simp only [decodeBytes, hman]
  rw [codecDecRule_of_operands P ha hb hc hd, hdec, ok_bind, ← manDec_out_length bs]
  rfl

/-- CODEC_DEC refuses an output that does not fit (R200). -/
theorem exec_codecDec_manchester_full (hfull : Config.params.maxElems < (bs.length + 1) / 2) :
    exec (.codecDec a b c d) s = .next (afterFailure (.codecDec a b c d) s .capacity) := by
  refine exec_afterFailure ?_
  rw [commandRule, codecDecRule_manchester ha hb hman hc hd, requireElems_not hfull, error_bind]

/-- CODEC_DEC writes an output that fits, and reports whether a bit was substituted. -/
theorem exec_codecDec_manchester (hfits : (bs.length + 1) / 2 ≤ Config.params.maxElems) :
    exec (.codecDec a b c d) s = .next (if (manDec bs).2 = [] then afterOk (manchesterDecoded s a d bs mk)
      else afterStatus (headerWord (.codecDec a b c d)) (manchesterDecoded s a d bs mk) 1) := by
  have hrule := codecDecRule_manchester ha hb hman hc hd Config.params
  rw [requireElems_of hfits, ok_bind] at hrule
  split
  case isTrue hnone =>
    rw [if_neg (by simp [hnone])] at hrule
    exact exec_afterOk hrule
  case isFalse hsome =>
    rw [if_pos (List.length_pos_iff.2 hsome)] at hrule
    exact exec_afterStatus (c := .decodeRecovered) nofun hrule

end

/-- Settles O34: the capacity decides how CODEC_DEC ends, the mask's flags go by the positions reported, and the
decoding is the decoder's pair by pair. -/
theorem manchesterDecoding : Obligations.ManchesterDecoding := by
  refine ⟨fun a b c d cd bs mk s ha hb hman hc hd => ⟨fun hfits => ?_, ?_, fun xs _ => ⟨?_, fun q => ?_⟩⟩,
    fun bs => ⟨manDec_out_length bs, manDec_bad_ascending bs, fun j => ?_, fun j => manDec_out_bit⟩⟩
  · have hrun := exec_codecDec_manchester ha hb hman hc hd hfits
    cases mk <;> exact hrun
  · exact exec_codecDec_manchester_full ha hb hman hc hd
  · exact markMask_length ..
  · exact markMask_getD (fun j => manDec_bad_lt) q
  · rw [mem_manDec_bad, likePair, beq_iff_eq]

end Sys2Proof.Machine
end

section
/-! PROOFS. The tiling of a band (R361) and the CARRIERS command (R360). -/

namespace Sys2Proof.Machine

/-! ### Where the tiling stops (R361) -/

/-- The centre `j` steps of the width above `c` (R361). -/
def centreAt (N : NumOps) (bw c : Number) (j : Nat) : Number := (fun c => N.add c bw)^[j] c

/-- Whether the band around that centre ends at or below `max` (R361). -/
def bandFits (N : NumOps) (half mx bw c : Number) (j : Nat) : Bool :=
  N.le (N.add (centreAt N bw c j) half) mx

theorem centreAt_succ (N : NumOps) (bw c : Number) (j : Nat) :
    centreAt N bw c (j + 1) = N.add (centreAt N bw c j) bw :=
  Function.iterate_succ_apply' _ j c

section

variable {N : NumOps} {half mx bw c : Number} {room : Nat}

/-- The loop answers the centres before the first band that does not fit. -/
theorem tileFrom_of_stop {n : Nat} (hn : n ≤ room) (hfits : ∀ j, j < n → bandFits N half mx bw c j = true)
    (hstop : bandFits N half mx bw c n = false) :
    tileFrom N half mx bw room c = .ok ((List.range n).map (centreAt N bw c)) := by
  induction n generalizing room c with
  | zero =>
    have hstop : N.le (N.add c half) mx = false := hstop
    cases room <;> simp [tileFrom, hstop]
  | succ n ih =>
    obtain ⟨room, rfl⟩ := Nat.exists_eq_add_of_lt hn
    have hfirst : N.le (N.add c half) mx = true := hfits 0 n.succ_pos
    have hrest := ih (room := n + room) (c := N.add c bw) (Nat.le_add_right _ _)
      (fun j hj => hfits (j + 1) (Nat.succ_lt_succ hj)) hstop
    rw [tileFrom, if_pos hfirst, hrest, List.range_succ_eq_map, List.map_cons, List.map_map]
    rfl

/-- Where one more band fits than there is room for, the loop raises `CAPACITY`. -/
theorem tileFrom_of_fits (hfits : ∀ j, j ≤ room → bandFits N half mx bw c j = true) :
    tileFrom N half mx bw room c = .error .capacity := by
  have hfirst : N.le (N.add c half) mx = true := hfits 0 room.zero_le
  induction room generalizing c with
  | zero => rw [tileFrom, if_pos hfirst]
  | succ room ih =>
    have hrest := ih (c := N.add c bw) (fun j hj => hfits (j + 1) (Nat.succ_le_succ hj))
      (hfits 1 (Nat.succ_le_succ room.zero_le))
    rw [tileFrom, if_pos hfirst, hrest]
    rfl

/-- Everything the loop can do. -/
theorem tileFrom_cases (N : NumOps) (half mx bw : Number) (room : Nat) (c : Number) :
    (tileFrom N half mx bw room c = .error .capacity ∧ ∀ j, j ≤ room → bandFits N half mx bw c j = true) ∨
    ∃ n, n ≤ room ∧ (∀ j, j < n → bandFits N half mx bw c j = true) ∧ bandFits N half mx bw c n = false ∧
      tileFrom N half mx bw room c = .ok ((List.range n).map (centreAt N bw c)) := by
  by_cases hstops : ∃ n, n ≤ room ∧ bandFits N half mx bw c n = false
  · obtain ⟨hn, hstop⟩ := Nat.find_spec hstops
    have hfits : ∀ j, j < Nat.find hstops → bandFits N half mx bw c j = true := fun j hj =>
      Bool.of_not_eq_false fun h => Nat.find_min hstops hj ⟨by omega, h⟩
    exact .inr ⟨_, hn, hfits, hstop, tileFrom_of_stop hn hfits hstop⟩
  · have hfits : ∀ j, j ≤ room → bandFits N half mx bw c j = true := fun j hj =>
      Bool.of_not_eq_false fun h => hstops ⟨j, hj, h⟩
    exact .inl ⟨tileFrom_of_fits hfits, hfits⟩

end

/-- The only failure of a tiling is `CAPACITY`. -/
theorem tile_error {P : Params} {mn mx bw : Number} {e : Failure} (h : tile P mn mx bw = .error e) :
    e = .capacity := by
  rcases tileFrom_cases P.num _ mx bw P.maxElems _ with ⟨herr, -⟩ | ⟨n, -, -, -, hok⟩
  · cases herr.symm.trans h
    rfl
  · cases hok.symm.trans h

/-- Settles O39: the tiling is the centres before the first band that does not fit, or `CAPACITY` where there is
no such band within `MAX_ELEMS`. -/
theorem tilingLaws : Obligations.TilingLaws := by
  intro P mn mx bw N half
  have hcases := tileFrom_cases N half mx bw P.maxElems (N.add mn half)
  refine ⟨fun cs hcs => ?_, fun e => tile_error, ?_⟩
  · rcases hcases with ⟨herr, -⟩ | ⟨n, hn, hfits, hstop, hok⟩
    · cases herr.symm.trans hcs
    · cases hok.symm.trans hcs
      refine ⟨by simpa using hn, ?_, ?_, fun j hj => ?_, fun c hc => ?_⟩
      · simpa [bandFits] using hfits
      · cases n with
        | zero => exact .inr ⟨rfl, hstop⟩
        | succ n => exact .inl (by rw [List.range_succ_eq_map]; rfl)
      · simp only [List.getElem_map, List.getElem_range, centreAt_succ]
      · cases n with
        | zero => cases hc
        | succ n =>
          rw [List.range_succ, List.map_append, List.map_singleton, List.getLast?_concat] at hc
          cases hc
          rwa [← centreAt_succ]
  · refine ⟨fun n => tileFrom_of_stop, fun herr => ?_, tileFrom_of_fits⟩
    rcases hcases with ⟨-, hfits⟩ | ⟨n, -, -, -, hok⟩
    · exact hfits
    · cases hok.symm.trans herr

/-! ### CARRIERS (R360) -/

/-- Settles O38: with a fresh slot and a block that fits the file, the numbers' checks decide between the tiling's
outcome and `INVALID_VALUE`. -/
theorem carriersCommand : Obligations.CarriersCommand := by
  intro a b s hb ha P mn mx bw
  have hrule : commandRule P (.carriers a b) s = (do
      require (P.num.isFinite mn && P.num.isFinite mx && P.num.isFinite bw) .invalidValue
      require (P.num.gt bw (P.num.ofInt 0)) .invalidValue
      let cs ← tile P mn mx bw
      done ((s.putObj a (.reals cs)).setRNat 0 cs.length)) := by
    simp only [commandRule, carriersRule, require_of (decide_eq_true hb), fresh_of_vacant ha, ok_bind]
    rfl
  split
  case isTrue hlegal =>
    obtain ⟨hfinite, hpos⟩ := Bool.and_eq_true_iff.1 hlegal
    rw [require_of hfinite, require_of hpos, ok_bind, ok_bind] at hrule
    cases htile : tile P mn mx bw with
    | ok cs => exact exec_afterOk (by rw [hrule, htile]; rfl)
    | error e => exact exec_afterFailure (by rw [hrule, htile]; rfl)
  case isFalse hillegal =>
    refine exec_afterFailure (hrule.trans ?_)
    cases hfinite : P.num.isFinite mn && P.num.isFinite mx && P.num.isFinite bw with
    | false => rfl
    | true =>
      have hpos : P.num.gt bw (P.num.ofInt 0) = false := by
        simpa only [hfinite, Bool.true_and, Bool.not_eq_true] using hillegal
      rw [require_of rfl, ok_bind, require_not hpos, error_bind]

end Sys2Proof.Machine
end

section
/-! PROOFS. MOD_NEW and DEM_NEW (R362 to R366, R375, R410 to R416): when a construction from the configuration
answers an object and which one, what it raises otherwise, and the two commands. -/

namespace Sys2Proof.Machine

/-! ### What a construction answers (R31, R364) -/

section

variable {α β : Type}

/-- Two steps answer where both do. -/
theorem bind_eq_ok_iff {x : Except Failure α} {f : α → Except Failure β} {r : β} :
    x >>= f = .ok r ↔ ∃ v, x = .ok v ∧ f v = .ok r := by
  cases x <;> simp

theorem pure_eq_ok_iff {v w : α} : (pure v : Except Failure α) = .ok w ↔ v = w :=
  ⟨Except.ok.inj, congrArg Except.ok⟩

theorem Bank.ofList?_eq_some {xs : List α} {b : Bank α} : Bank.ofList? xs = some b ↔ xs = b.toList := by
  refine ⟨fun h => (Bank.toList_of_ofList? h).symm, ?_⟩
  rintro rfl
  rfl

@[simp] theorem Bank.toList_map (f : α → β) (b : Bank α) : (b.map f).toList = b.toList.map f := rfl

section

variable {f : α → Except Failure β} {key : β → α} {Q : β → Prop} (hf : ∀ x y, f x = .ok y ↔ x = key y ∧ Q y)
include hf

/-- Where what is built tells what it was built for, so do all of them together. -/
theorem buildAll_eq_ok {xs : List α} {ys : List β} :
    buildAll f xs = .ok ys ↔ xs = ys.map key ∧ ∀ y ∈ ys, Q y := by
  induction xs generalizing ys with
  | nil => cases ys <;> simp [buildAll]
  | cons x xs ih =>
    simp only [buildAll, bind_eq_ok_iff, pure_eq_ok_iff, ih, hf]
    constructor
    · rintro ⟨y, ⟨rfl, hy⟩, ys, ⟨rfl, hys⟩, rfl⟩
      exact ⟨rfl, List.forall_mem_cons.2 ⟨hy, hys⟩⟩
    · rintro ⟨hxs, hall⟩
      cases ys with
      | nil => cases hxs
      | cons y ys =>
        cases hxs
        obtain ⟨hy, hys⟩ := List.forall_mem_cons.1 hall
        exact ⟨y, ⟨rfl, hy⟩, ys, ⟨rfl, hys⟩, rfl⟩

/-- The same of a bank (R366). -/
theorem buildBank_eq_ok {b : Bank α} {b' : Bank β} : buildBank f b = .ok b' ↔ b = b'.map key ∧ b'.All Q := by
  obtain ⟨x, xs⟩ := b
  obtain ⟨y, ys⟩ := b'
  simp only [buildBank, bind_eq_ok_iff, pure_eq_ok_iff, buildAll_eq_ok hf, hf, Bank.map, Bank.All, Bank.toList,
    List.forall_mem_cons, Bank.mk.injEq]
  constructor
  · rintro ⟨y, ⟨rfl, hy⟩, ys, ⟨rfl, hys⟩, rfl, rfl⟩
    exact ⟨⟨rfl, rfl⟩, hy, hys⟩
  · rintro ⟨⟨rfl, rfl⟩, hy, hys⟩
    exact ⟨y, ⟨rfl, hy⟩, ys, ⟨rfl, hys⟩, rfl, rfl⟩

end

end

/-! ### What a construction raises (R363, R364, R375, R412) -/

/-- A construction raises nothing but `CONSTRUCTION_ERROR`, or `CAPACITY` where `X` holds. -/
def ConstructionRaises {α : Type} (X : Prop) (x : Except Failure α) : Prop :=
  ∀ e, x = .error e → e = .constructionError ∨ e = .capacity ∧ X

namespace ConstructionRaises

variable {α β : Type} {X : Prop}

theorem pure {v : α} : ConstructionRaises X (pure v) := nofun

theorem built {o : Option α} : ConstructionRaises X (built o) := by
  intro e he
  cases o with
  | none =>
    cases he
    exact .inl rfl
  | some v => cases he

theorem require {c : Bool} : ConstructionRaises X (require c .constructionError) :=
  fun _ he => .inl (require_eq_error.1 he).2.symm

theorem bind {x : Except Failure α} {f : α → Except Failure β} (hx : ConstructionRaises X x)
    (hf : ∀ v, x = .ok v → ConstructionRaises X (f v)) : ConstructionRaises X (x >>= f) := by
  cases x with
  | error e =>
    intro e' he'
    cases he'
    exact hx e rfl
  | ok v => exact hf v rfl

theorem mono {Y : Prop} {x : Except Failure α} (h : ConstructionRaises X x) (hXY : X → Y) :
    ConstructionRaises Y x :=
  fun e he => (h e he).imp_right fun hcap => ⟨hcap.1, hXY hcap.2⟩

theorem buildAll {f : α → Except Failure β} (hf : ∀ x, ConstructionRaises X (f x)) (xs : List α) :
    ConstructionRaises X (buildAll f xs) := by
  induction xs with
  | nil => exact pure
  | cons x xs ih => exact (hf x).bind fun _ _ => ih.bind fun _ _ => pure

theorem buildBank {f : α → Except Failure β} (hf : ∀ x, ConstructionRaises X (f x)) (b : Bank α) :
    ConstructionRaises X (buildBank f b) :=
  (hf b.first).bind fun _ _ => (buildAll hf b.rest).bind fun _ _ => pure

/-- A construction that answers nothing and whose capacity suffices raises `CONSTRUCTION_ERROR`. -/
theorem eq_error {x : Except Failure α} (h : ConstructionRaises X x) (hX : ¬X) (hnone : ∀ v, x ≠ .ok v) :
    x = .error .constructionError := by
  cases x with
  | ok v => exact absurd rfl (hnone v)
  | error e => rw [(h e rfl).resolve_right fun hcap => hX hcap.2]

end ConstructionRaises

section

variable {P : Params} {g : Cfg} {sps rate dsps : Nat} {sepi : Int} {width centre : Number} {X : Prop}

theorem planTones_raises : ConstructionRaises X (planTones P sps rate sepi centre) :=
  .bind .built fun _ _ => .pure

theorem buildOfdmLane_raises : ConstructionRaises X (buildOfdmLane P sps rate sepi width centre) :=
  planTones_raises.bind fun _ _ => .bind .built fun _ _ => .pure

theorem channelCtx_raises : ConstructionRaises X (channelCtx P sps rate dsps sepi width centre) :=
  planTones_raises.bind fun _ _ => .pure

theorem buildChan_raises {ctx : DesignCtx} : ConstructionRaises X (buildChan P ctx) :=
  .bind .built fun _ _ => .bind .built fun _ _ => .bind .built fun _ _ => .bind .built fun _ _ => .pure

theorem buildSmoothChan_raises {ctx : DesignCtx} : ConstructionRaises X (buildSmoothChan P ctx) :=
  buildChan_raises.bind fun _ _ => .bind .built fun _ _ => .pure

/-- The tiling at the base plan's sub-band width does not fit `MAX_ELEMS` (R365). -/
def TilingFull (P : Params) (g : Cfg) (sps rate : Nat) (sepi : Int) : Prop :=
  ∃ base, P.planFSK sps rate (P.num.ofInt 0) sepi = some base ∧
    tile P g.fmin g.fmax (P.num.div base.bw (P.num.ofInt g.bwdiv.toInt)) = .error .capacity

theorem planBands_raises : ConstructionRaises (TilingFull P g sps rate sepi) (planBands P g sps rate sepi) := by
  refine .bind .built fun base hbase => .bind .require fun _ _ => .bind (fun e he => ?_) fun _ _ =>
    .bind .built fun _ _ => .pure
  cases tile_error he
  exact .inr ⟨rfl, base, built_eq_ok.1 hbase, he⟩

/-- A BFSK modulator tiles no band (R364, R365). -/
theorem buildModBody_raises (m : ModKind) :
    ConstructionRaises (m ≠ .bfsk ∧ TilingFull P g sps rate sepi) (buildModBody P g sps rate sepi m) := by
  cases m with
  | bfsk => exact planTones_raises.bind fun _ _ => .pure
  | ofdm =>
    exact .bind (planBands_raises.mono fun h => ⟨nofun, h⟩) fun _ _ =>
      .bind (.buildBank (fun _ => buildOfdmLane_raises) _) fun _ _ => .pure
  | fhss =>
    exact .bind (planBands_raises.mono fun h => ⟨nofun, h⟩) fun _ _ =>
      .bind (.buildBank (fun _ => planTones_raises) _) fun _ _ => .pure

/-- The same of a demodulator (R416). -/
theorem buildDemBody_raises (m : ModKind) :
    ConstructionRaises (m ≠ .bfsk ∧ TilingFull P g sps rate sepi) (buildDemBody P g sps rate dsps sepi m) := by
  cases m with
  | bfsk => exact planTones_raises.bind fun _ _ => buildSmoothChan_raises.bind fun _ _ => .pure
  | ofdm =>
    exact .bind (planBands_raises.mono fun h => ⟨nofun, h⟩) fun _ _ =>
      .bind (.buildBank (fun _ => channelCtx_raises.bind fun _ _ => buildSmoothChan_raises) _) fun _ _ => .pure
  | fhss =>
    exact .bind (planBands_raises.mono fun h => ⟨nofun, h⟩) fun _ _ =>
      .bind (.buildBank (fun _ => channelCtx_raises.bind fun _ _ => buildChan_raises) _) fun _ _ =>
        .bind .built fun _ _ => .pure

/-! ### What is built, channel by channel (R364 to R366, R375, R412 to R416) -/

theorem planTones_eq_ok {q : ToneSet} :
    planTones P sps rate sepi centre = .ok q ↔
      centre = q.carrier ∧ P.planFSK sps rate q.carrier sepi = some ⟨q.f0, q.f1, q.deltaF, q.bw⟩ := by
  obtain ⟨carrier, f0, f1, deltaF, bw⟩ := q
  simp only [planTones, bind_eq_ok_iff, pure_eq_ok_iff, built_eq_ok, ToneSet.mk.injEq]
  constructor
  · rintro ⟨p, hp, rfl, rfl, rfl, rfl, rfl⟩
    exact ⟨rfl, hp⟩
  · rintro ⟨rfl, hp⟩
    exact ⟨_, hp, rfl, rfl, rfl, rfl, rfl⟩

theorem planBands_eq_ok {bp : BandPlan} :
    planBands P g sps rate sepi = .ok bp ↔
      P.planFSK sps rate (P.num.ofInt 0) sepi = some bp.base ∧
      bp.width = P.num.div bp.base.bw (P.num.ofInt g.bwdiv.toInt) ∧
      P.num.isFinite bp.width = true ∧ P.num.gt bp.width (P.num.ofInt 0) = true ∧
      tile P g.fmin g.fmax bp.width = .ok bp.centers.toList := by
  obtain ⟨base, width, centers⟩ := bp
  simp only [planBands, bind_eq_ok_iff, pure_eq_ok_iff, built_eq_ok, require_eq_ok, Bool.and_eq_true,
    Bank.ofList?_eq_some, BandPlan.mk.injEq]
  constructor
  · rintro ⟨base, hbase, -, hwidth, cs, hcs, centers, rfl, rfl, rfl, rfl⟩
    exact ⟨hbase, rfl, hwidth.1, hwidth.2, hcs⟩
  · rintro ⟨hbase, rfl, hfinite, hpos, hcs⟩
    exact ⟨base, hbase, (), ⟨hfinite, hpos⟩, _, hcs, centers, rfl, rfl, rfl, rfl⟩

theorem buildOfdmLane_eq_ok {l : OfdmLane} :
    buildOfdmLane P sps rate sepi width centre = .ok l ↔ centre = l.tones.carrier ∧
      P.planFSK sps rate l.tones.carrier sepi = some ⟨l.tones.f0, l.tones.f1, l.tones.deltaF, l.tones.bw⟩ ∧
      designBP P (P.plan.ofdmBand ⟨sps, rate, ⟨l.tones.carrier, width⟩, l.tones⟩) = some l.filt := by
  obtain ⟨tones, filt⟩ := l
  simp only [buildOfdmLane, bind_eq_ok_iff, pure_eq_ok_iff, built_eq_ok, planTones_eq_ok, OfdmLane.mk.injEq]
  constructor
  · rintro ⟨tones, ⟨rfl, hplan⟩, filt, hfilt, rfl, rfl⟩
    exact ⟨rfl, hplan, hfilt⟩
  · rintro ⟨rfl, hplan, hfilt⟩
    exact ⟨tones, ⟨rfl, hplan⟩, filt, hfilt, rfl, rfl⟩

/-- A channel's tones, its four filters in the order they are designed, and their group delays (R412, R413). -/
theorem buildChan_eq_ok {ctx : DesignCtx} {ch : Chan} :
    buildChan P ctx = .ok ch ↔ ch.tones = ctx.tones ∧
      ch.t0 = P.num.add ctx.tones.carrier ctx.tones.f0 ∧ ch.t1 = P.num.add ctx.tones.carrier ctx.tones.f1 ∧
      designBP P (stageOneArgs P ctx ch.t0) = some ch.bp0 ∧ designBP P (stageOneArgs P ctx ch.t1) = some ch.bp1 ∧
      ch.gd0 = P.groupDelay ch.bp0 ∧ ch.gd1 = P.groupDelay ch.bp1 ∧
      designLP P (P.plan.interpLP ctx) = some ch.lpi ∧ designLP P (envelopeArgs P ctx) = some ch.lpe := by
  obtain ⟨tones, t0, t1, bp0, bp1, gd0, gd1, lpi, lpe⟩ := ch
  simp only [buildChan, bind_eq_ok_iff, pure_eq_ok_iff, built_eq_ok, Chan.mk.injEq]
  constructor
  · rintro ⟨bp0, hbp0, bp1, hbp1, lpi, hlpi, lpe, hlpe, rfl, rfl, rfl, rfl, rfl, rfl, rfl, rfl, rfl⟩
    exact ⟨rfl, rfl, rfl, hbp0, hbp1, rfl, rfl, hlpi, hlpe⟩
  · rintro ⟨rfl, rfl, rfl, hbp0, hbp1, rfl, rfl, hlpi, hlpe⟩
    exact ⟨bp0, hbp0, bp1, hbp1, lpi, hlpi, lpe, hlpe, rfl, rfl, rfl, rfl, rfl, rfl, rfl, rfl, rfl⟩

theorem buildSmoothChan_eq_ok {ctx : DesignCtx} {ch : SmoothChan} :
    buildSmoothChan P ctx = .ok ch ↔
      buildChan P ctx = .ok ch.chan ∧ designLP P (P.plan.smoothLP ctx) = some ch.lp6 := by
  obtain ⟨chan, lp6⟩ := ch
  simp only [buildSmoothChan, buildSmooth, bind_eq_ok_iff, pure_eq_ok_iff, built_eq_ok, SmoothChan.mk.injEq]
  exact ⟨fun ⟨_, hchan, _, hlp, e, e'⟩ => e ▸ e' ▸ ⟨hchan, hlp⟩,
    fun ⟨hchan, hlp⟩ => ⟨_, hchan, _, hlp, rfl, rfl⟩⟩

theorem buildModBody_bfsk_eq_ok {body : ModBody} :
    buildModBody P g sps rate sepi .bfsk = .ok body ↔
      ∃ tones, planTones P sps rate sepi g.carrier = .ok tones ∧ body = .bfsk tones := by
  simp only [buildModBody, bind_eq_ok_iff, pure_eq_ok_iff, eq_comm (a := body)]

/-- An OFDM modulator's lanes are those of the tiling's centres, which they store as their carriers (R366). -/
theorem buildModBody_ofdm_eq_ok {body : ModBody} :
    buildModBody P g sps rate sepi .ofdm = .ok body ↔ ∃ base width lanes, body = .ofdm base width lanes ∧
      planBands P g sps rate sepi = .ok ⟨base, width, lanes.map fun l => l.tones.carrier⟩ ∧
      lanes.All fun l =>
        P.planFSK sps rate l.tones.carrier sepi = some ⟨l.tones.f0, l.tones.f1, l.tones.deltaF, l.tones.bw⟩ ∧
        designBP P (P.plan.ofdmBand ⟨sps, rate, ⟨l.tones.carrier, width⟩, l.tones⟩) = some l.filt := by
  simp only [buildModBody, bind_eq_ok_iff, pure_eq_ok_iff, buildBank_eq_ok fun _ _ => buildOfdmLane_eq_ok]
  constructor
  · rintro ⟨⟨base, width, -⟩, hbands, lanes, ⟨rfl, hlanes⟩, rfl⟩
    exact ⟨base, width, lanes, rfl, hbands, hlanes⟩
  · rintro ⟨base, width, lanes, rfl, hbands, hlanes⟩
    exact ⟨_, hbands, lanes, ⟨rfl, hlanes⟩, rfl⟩

/-- The same of an FHSS modulator, whose lanes have no filter. -/
theorem buildModBody_fhss_eq_ok {body : ModBody} :
    buildModBody P g sps rate sepi .fhss = .ok body ↔ ∃ base width lanes, body = .fhss base width lanes ∧
      planBands P g sps rate sepi = .ok ⟨base, width, lanes.map ToneSet.carrier⟩ ∧
      lanes.All fun q => P.planFSK sps rate q.carrier sepi = some ⟨q.f0, q.f1, q.deltaF, q.bw⟩ := by
  simp only [buildModBody, bind_eq_ok_iff, pure_eq_ok_iff, buildBank_eq_ok fun _ _ => planTones_eq_ok]
  constructor
  · rintro ⟨⟨base, width, -⟩, hbands, lanes, ⟨rfl, hlanes⟩, rfl⟩
    exact ⟨base, width, lanes, rfl, hbands, hlanes⟩
  · rintro ⟨base, width, lanes, rfl, hbands, hlanes⟩
    exact ⟨_, hbands, lanes, ⟨rfl, hlanes⟩, rfl⟩

theorem buildDemBody_bfsk_eq_ok {body : DemBody} :
    buildDemBody P g sps rate dsps sepi .bfsk = .ok body ↔ ∃ tones ch,
      planTones P sps rate sepi g.carrier = .ok tones ∧
      buildSmoothChan P ⟨sps, rate, dsps, tones, none⟩ = .ok ch ∧ body = .bfsk ch := by
  simp only [buildDemBody, bind_eq_ok_iff, pure_eq_ok_iff, eq_comm (a := body), exists_and_left]

end

/-! ### The configuration (R363, R410) -/

section

variable {P : Params} {g : Cfg}

theorem modConfigLegal_iff {N : NumOps} {m : ModKind} :
    modConfigLegal N g m = true ↔ g.bps.toInt = 1 ∧ 1 ≤ g.srate.toInt ∧ 1 ≤ g.sps.toInt ∧ 1 ≤ g.expf.toInt ∧
      kindConfigLegal N g m = true := by
  simp only [modConfigLegal, Bool.and_eq_true, decide_eq_true_eq, and_assoc]

theorem demConfigLegal_iff {N : NumOps} {m : ModKind} :
    demConfigLegal N g m = true ↔ g.bps.toInt = 1 ∧ 1 ≤ g.srate.toInt ∧ 1 ≤ g.sps.toInt ∧ 1 ≤ g.dsps.toInt ∧
      g.dsps.toInt ≤ 2 * g.sps.toInt ∧ kindConfigLegal N g m = true := by
  simp only [demConfigLegal, Bool.and_eq_true, decide_eq_true_eq, and_assoc]

theorem buildMod_illegal {m : ModKind} (h : modConfigLegal P.num g m = false) :
    buildMod P g m = .error .configurationError := by
  rw [buildMod, require_not h, error_bind]

theorem buildDem_illegal {m : ModKind} (h : demConfigLegal P.num g m = false) :
    buildDem P g m = .error .configurationError := by
  rw [buildDem, require_not h, error_bind]

/-- A modulator holds the configuration's parameters and the body built from them (R363). -/
theorem buildMod_eq_ok {m : ModKind} {md : Modulator} :
    buildMod P g m = .ok md ↔ modConfigLegal P.num g m = true ∧
      (md.sps = g.sps.toInt.toNat ∧ md.rate = g.srate.toInt.toNat ∧ md.expf = g.expf.toInt.toNat ∧
        md.sepi = g.sepi.toInt) ∧
      buildModBody P g md.sps md.rate md.sepi m = .ok md.body := by
  obtain ⟨sps, rate, expf, sepi, body⟩ := md
  simp only [buildMod, bind_eq_ok_iff, pure_eq_ok_iff, require_eq_ok, exists_and_left, Modulator.mk.injEq]
  constructor
  · rintro ⟨hlegal, -, body, hbody, rfl, rfl, rfl, rfl, rfl⟩
    exact ⟨hlegal, ⟨rfl, rfl, rfl, rfl⟩, hbody⟩
  · rintro ⟨hlegal, ⟨rfl, rfl, rfl, rfl⟩, hbody⟩
    exact ⟨hlegal, (), body, hbody, rfl, rfl, rfl, rfl, rfl⟩

/-- A demodulator holds the configuration's parameters, the constants of R411 and the body built from them
(R410, R411). -/
theorem buildDem_eq_ok {m : ModKind} {d : Demodulator} :
    buildDem P g m = .ok d ↔ demConfigLegal P.num g m = true ∧
      (d.sps = g.sps.toInt.toNat ∧ d.rate = g.srate.toInt.toNat ∧ d.dsps = g.dsps.toInt.toNat ∧
        d.sepi = g.sepi.toInt ∧ d.thr = g.gthresh) ∧
      (d.decim = 2 * d.sps / d.dsps ∧ d.gardnerSps = 2 * d.dsps ∧ d.window = d.dsps) ∧
      buildDemBody P g d.sps d.rate d.dsps d.sepi m = .ok d.body := by
  obtain ⟨sps, rate, dsps, sepi, thr, decim, gardnerSps, window, body⟩ := d
  simp only [buildDem, bind_eq_ok_iff, pure_eq_ok_iff, require_eq_ok, exists_and_left, Demodulator.mk.injEq]
  constructor
  · rintro ⟨hlegal, -, body, hbody, rfl, rfl, rfl, rfl, rfl, rfl, rfl, rfl, rfl⟩
    exact ⟨hlegal, ⟨rfl, rfl, rfl, rfl, rfl⟩, ⟨rfl, rfl, rfl⟩, hbody⟩
  · rintro ⟨hlegal, ⟨rfl, rfl, rfl, rfl, rfl⟩, ⟨rfl, rfl, rfl⟩, hbody⟩
    exact ⟨hlegal, (), body, hbody, rfl, rfl, rfl, rfl, rfl, rfl, rfl, rfl, rfl⟩

theorem buildMod_raises {m : ModKind} (h : modConfigLegal P.num g m = true) :
    ConstructionRaises (m ≠ .bfsk ∧ TilingFull P g g.sps.toInt.toNat g.srate.toInt.toNat g.sepi.toInt)
      (buildMod P g m) := by
  rw [buildMod, require_of h, ok_bind]
  exact (buildModBody_raises m).bind fun _ _ => .pure

theorem buildDem_raises {m : ModKind} (h : demConfigLegal P.num g m = true) :
    ConstructionRaises (m ≠ .bfsk ∧ TilingFull P g g.sps.toInt.toNat g.srate.toInt.toNat g.sepi.toInt)
      (buildDem P g m) := by
  rw [buildDem, require_of h, ok_bind]
  exact (buildDemBody_raises m).bind fun _ _ => .pure

end

/-- Settles O42: what a modulator is built of, with each channel built from the centre it stores as its carrier. -/
theorem ofdmModulatorFields : Obligations.OfdmModulatorFields := by
  intro P g m N legal copied bands planned
  have hlegal (k : ModKind) (hk : k ≠ .bfsk) : modConfigLegal P.num g k = true ↔ legal := by
    cases k with
    | bfsk => exact absurd rfl hk
    | ofdm | fhss =>
      simp only [modConfigLegal_iff, kindConfigLegal, Bool.and_eq_true, decide_eq_true_eq, and_assoc, legal, N]
  constructor
  · rw [buildMod_eq_ok, hlegal .ofdm nofun, buildModBody_ofdm_eq_ok]
    simp only [planBands_eq_ok, Bank.toList_map]
    rfl
  · rw [buildMod_eq_ok, hlegal .fhss nofun, buildModBody_fhss_eq_ok]
    simp only [planBands_eq_ok, Bank.toList_map]
    rfl

/-! ### The commands (R362, R410) -/

section

variable {a : Handle} {m : ModKind} {s : State}

theorem exec_modNew_built {md : Modulator} (ha : Vacant s a) (h : buildMod Config.params s.cfg m = .ok md) :
    exec (.modNew a m) s = .next (afterOk ((s.putObj a (.mod md)).setRNat 0 md.channels)) := by
  refine exec_afterOk ?_
  simp only [commandRule, modNewRule, fresh_of_vacant ha, ok_bind, h, done]

theorem exec_modNew_failed {e : Failure} (ha : Vacant s a) (h : buildMod Config.params s.cfg m = .error e) :
    exec (.modNew a m) s = .next (afterFailure (.modNew a m) s e) := by
  refine exec_afterFailure ?_
  simp only [commandRule, modNewRule, fresh_of_vacant ha, ok_bind, h, error_bind]

theorem exec_demNew_built {d : Demodulator} (ha : Vacant s a) (h : buildDem Config.params s.cfg m = .ok d) :
    exec (.demNew a m) s = .next (afterOk ((s.putObj a (.dem d)).setRNat 0 d.channels)) := by
  refine exec_afterOk ?_
  simp only [commandRule, demNewRule, fresh_of_vacant ha, ok_bind, h, done]

theorem exec_demNew_failed {e : Failure} (ha : Vacant s a) (h : buildDem Config.params s.cfg m = .error e) :
    exec (.demNew a m) s = .next (afterFailure (.demNew a m) s e) := by
  refine exec_afterFailure ?_
  simp only [commandRule, demNewRule, fresh_of_vacant ha, ok_bind, h, error_bind]

end

section

variable {P : Params} {g : Cfg}

/-- A legal configuration of a BFSK modulator builds it where the planner accepts (R364). -/
theorem buildMod_bfsk_planned {p : Plan} (hlegal : modConfigLegal P.num g .bfsk = true)
    (hplan : P.planFSK g.sps.toInt.toNat g.srate.toInt.toNat g.carrier g.sepi.toInt = some p) :
    buildMod P g .bfsk = .ok ⟨g.sps.toInt.toNat, g.srate.toInt.toNat, g.expf.toInt.toNat, g.sepi.toInt,
      .bfsk ⟨g.carrier, p.f0, p.f1, p.deltaF, p.bw⟩⟩ :=
  buildMod_eq_ok.2 ⟨hlegal, ⟨rfl, rfl, rfl, rfl⟩,
    buildModBody_bfsk_eq_ok.2 ⟨_, planTones_eq_ok.2 ⟨rfl, hplan⟩, rfl⟩⟩

/-- Where the planner does not accept, the construction fails (R364). -/
theorem buildMod_bfsk_unplanned (hlegal : modConfigLegal P.num g .bfsk = true)
    (hplan : P.planFSK g.sps.toInt.toNat g.srate.toInt.toNat g.carrier g.sepi.toInt = none) :
    buildMod P g .bfsk = .error .constructionError := by
  refine (buildMod_raises hlegal).eq_error (fun h => h.1 rfl) fun md hmd => ?_
  obtain ⟨-, ⟨hsps, hrate, -, hsepi⟩, hbody⟩ := buildMod_eq_ok.1 hmd
  obtain ⟨tones, htones, -⟩ := buildModBody_bfsk_eq_ok.1 hbody
  obtain ⟨hcarrier, hplanned⟩ := planTones_eq_ok.1 htones
  rw [hsps, hrate, hsepi, ← hcarrier, hplan] at hplanned
  cases hplanned

end

/-- Settles O40: the legal configurations are those of R363, and the planner decides the rest. -/
theorem modNewBfsk : Obligations.ModNewBfsk := by
  intro a s ha P g sps rate
  split
  case isTrue hcfg =>
    have hlegal : modConfigLegal Config.params.num s.cfg .bfsk = true := modConfigLegal_iff.2 hcfg
    split
    case h_1 hplan => exact exec_modNew_failed ha (buildMod_bfsk_unplanned hlegal hplan)
    case h_2 p hplan => exact exec_modNew_built ha (buildMod_bfsk_planned hlegal hplan)
  case isFalse hcfg =>
    exact exec_modNew_failed ha (buildMod_illegal (Bool.eq_false_iff.2 fun h => hcfg (modConfigLegal_iff.1 h)))

/-! ### MOD_NEW and DEM_NEW of every kind, and DEM_NEW of BFSK port by port (R410 to R414) -/

section

variable {P : Params} {g : Cfg}

/-- A BFSK demodulator is its planned channel (R411 to R414). -/
theorem buildDem_bfsk_built {tones : ToneSet} {ch : SmoothChan} (hlegal : demConfigLegal P.num g .bfsk = true)
    (htones : planTones P g.sps.toInt.toNat g.srate.toInt.toNat g.sepi.toInt g.carrier = .ok tones)
    (hch : buildSmoothChan P ⟨g.sps.toInt.toNat, g.srate.toInt.toNat, g.dsps.toInt.toNat, tones, none⟩ = .ok ch) :
    buildDem P g .bfsk = .ok ⟨g.sps.toInt.toNat, g.srate.toInt.toNat, g.dsps.toInt.toNat, g.sepi.toInt, g.gthresh,
      2 * g.sps.toInt.toNat / g.dsps.toInt.toNat, 2 * g.dsps.toInt.toNat, g.dsps.toInt.toNat, .bfsk ch⟩ :=
  buildDem_eq_ok.2 ⟨hlegal, ⟨rfl, rfl, rfl, rfl, rfl⟩, ⟨rfl, rfl, rfl⟩,
    buildDemBody_bfsk_eq_ok.2 ⟨tones, ch, htones, hch, rfl⟩⟩

/-- Where the planner or a filter's design gives nothing, the construction fails (R412). -/
theorem buildDem_bfsk_unbuilt (hlegal : demConfigLegal P.num g .bfsk = true)
    (hnone : ∀ tones ch,
      planTones P g.sps.toInt.toNat g.srate.toInt.toNat g.sepi.toInt g.carrier = .ok tones →
      buildSmoothChan P ⟨g.sps.toInt.toNat, g.srate.toInt.toNat, g.dsps.toInt.toNat, tones, none⟩ ≠ .ok ch) :
    buildDem P g .bfsk = .error .constructionError := by
  refine (buildDem_raises hlegal).eq_error (fun h => h.1 rfl) fun d hd => ?_
  obtain ⟨-, ⟨hsps, hrate, hdsps, hsepi, -⟩, -, hbody⟩ := buildDem_eq_ok.1 hd
  obtain ⟨tones, ch, htones, hch, -⟩ := buildDemBody_bfsk_eq_ok.1 hbody
  rw [hsps, hrate, hsepi] at htones
  rw [hsps, hrate, hdsps] at hch
  exact hnone tones ch htones hch

end

/-- Settles O41: the construction's answer, or its failure, is the command's. -/
theorem instanceCreation : Obligations.InstanceCreation := by
  unfold Obligations.InstanceCreation
  intro shared modLegal demLegal
  have hshared (N : NumOps) (g : Cfg) (m : ModKind) : shared N g m =
      (decide (g.bps.toInt = 1 ∧ 1 ≤ g.srate.toInt ∧ 1 ≤ g.sps.toInt) && kindConfigLegal N g m) := by
    cases m <;> rfl
  have hmodLegal (N : NumOps) (g : Cfg) (m : ModKind) : modLegal N g m = modConfigLegal N g m := by
    rw [Bool.eq_iff_iff, modConfigLegal_iff]
    simp only [modLegal, hshared, Bool.and_eq_true, decide_eq_true_eq]
    tauto
  have hdemLegal (N : NumOps) (g : Cfg) (m : ModKind) : demLegal N g m = demConfigLegal N g m := by
    rw [Bool.eq_iff_iff, demConfigLegal_iff]
    simp only [demLegal, hshared, Bool.and_eq_true, decide_eq_true_eq]
    tauto
  refine ⟨?_, ?_, ?_⟩
  · intro a m s ha P
    rw [hmodLegal, hdemLegal]
    constructor
    · split
      case isTrue hlegal =>
        split
        case h_1 md hmd =>
          obtain ⟨sps, rate, expf, sepi, body⟩ := md
          cases body <;> exact exec_modNew_built ha hmd
        case h_2 e he => exact exec_modNew_failed ha he
      case isFalse hillegal => exact exec_modNew_failed ha (buildMod_illegal (Bool.eq_false_iff.2 hillegal))
    · split
      case isTrue hlegal =>
        split
        case h_1 d hd =>
          obtain ⟨sps, rate, dsps, sepi, thr, decim, gardnerSps, window, body⟩ := d
          cases body <;> exact exec_demNew_built ha hd
        case h_2 e he => exact exec_demNew_failed ha he
      case isFalse hillegal => exact exec_demNew_failed ha (buildDem_illegal (Bool.eq_false_iff.2 hillegal))
  · intro P g m e herr
    rw [hmodLegal, hdemLegal] at herr
    rcases herr with ⟨hlegal, he⟩ | ⟨hlegal, he⟩
    · exact buildMod_raises hlegal e he
    · exact buildDem_raises hlegal e he
  · intro a s ha P N g sps rate dsps
    split
    case isTrue hcfg =>
      have hlegal : demConfigLegal P.num g .bfsk = true := demConfigLegal_iff.2 hcfg
      split
      case h_1 hplan =>
        refine exec_demNew_failed ha (buildDem_bfsk_unbuilt hlegal fun tones ch htones => ?_)
        obtain ⟨hcarrier, hplanned⟩ := planTones_eq_ok.1 htones
        cases (hcarrier ▸ hplan).symm.trans hplanned
      case h_2 p hplan =>
        extract_lets tones ctx att env bp t0 t1
        have htones : planTones P sps rate g.sepi.toInt g.carrier = .ok tones := planTones_eq_ok.2 ⟨rfl, hplan⟩
        split
        case h_1 bp0 bp1 lpi lpe lp6 hbp0 hbp1 hlpi hlpe hlp6 =>
          have hchan : buildChan P ctx =
              .ok ⟨tones, t0, t1, bp0, bp1, P.groupDelay bp0, P.groupDelay bp1, lpi, lpe⟩ :=
            buildChan_eq_ok.2 ⟨rfl, rfl, rfl, hbp0, hbp1, rfl, rfl, hlpi, hlpe⟩
          exact exec_demNew_built ha (buildDem_bfsk_built hlegal htones
            (buildSmoothChan_eq_ok.2 ⟨hchan, hlp6⟩))
        case h_2 hnone =>
          refine exec_demNew_failed ha (buildDem_bfsk_unbuilt hlegal fun tones' ch htones' hch => ?_)
          cases htones.symm.trans htones'
          obtain ⟨hchan, hlp6⟩ := buildSmoothChan_eq_ok.1 hch
          obtain ⟨-, ht0, ht1, hbp0, hbp1, -, -, hlpi, hlpe⟩ := buildChan_eq_ok.1 hchan
          rw [ht0] at hbp0
          rw [ht1] at hbp1
          exact hnone _ _ _ _ _ hbp0 hbp1 hlpi hlpe hlp6
    case isFalse hcfg =>
      exact exec_demNew_failed ha (buildDem_illegal (Bool.eq_false_iff.2 fun h => hcfg (demConfigLegal_iff.1 h)))

end Sys2Proof.Machine
end

section
/-! PROOFS. The samples of a modulation (R367, R371 to R373), the round-robin split of the OFDM channels (R372),
and how DEM_ASSEMBLE undoes it (R440). -/

namespace Sys2Proof.Machine

/-! ### Every `n`-th element of a list (R29) -/

section

variable {α : Type} {c n : Nat}

/-- Every position of a stride lies in the list. -/
theorem map_some_strided (xs : List α) (hc : c < n) :
    (strided xs c n).map some = (List.range ((xs.length - c + n - 1) / n)).map fun j => xs[c + j * n]? := by
  rw [strided, List.map_filterMap, ← List.filterMap_eq_map]
  refine List.filterMap_congr fun j hj => ?_
  have hj : c + j * n < xs.length := by
    have hmul := Nat.mul_le_of_le_div n _ _ (Nat.succ_le_of_lt (List.mem_range.1 hj))
    rw [Nat.succ_mul] at hmul
    omega
  simp [hj]

theorem strided_length (xs : List α) (hc : c < n) : (strided xs c n).length = (xs.length - c + n - 1) / n := by
  simpa using congrArg List.length (map_some_strided xs hc)

theorem strided_getElem? (xs : List α) (hc : c < n) (j : Nat) : (strided xs c n)[j]? = xs[c + j * n]? := by
  rcases Nat.lt_or_ge j ((xs.length - c + n - 1) / n) with hj | hj
  · have hmap := congrArg (·[j]?) (map_some_strided xs hc)
    simp only [List.getElem?_map, List.getElem?_range hj, Option.map_some] at hmap
    obtain ⟨x, hx, hx'⟩ := Option.map_eq_some_iff.1 hmap
    rw [hx, hx']
  · have hend : xs.length ≤ c + j * n := by
      have hmul := Nat.lt_mul_of_div_lt (Nat.lt_succ_of_le hj) (by omega : 0 < n)
      rw [Nat.succ_mul] at hmul
      omega
    rw [List.getElem?_eq_none (strided_length xs hc ▸ hj), List.getElem?_eq_none hend]

/-- Of a list of `q` times `n` elements every stride has `q`. -/
theorem strided_length_of_mul {xs : List α} {q : Nat} (hlen : xs.length = q * n) (hc : c < n) :
    (strided xs c n).length = q := by
  have hfull : q = 0 ∨ n ≤ q * n := (Nat.eq_zero_or_pos q).imp_right fun hq => Nat.le_mul_of_pos_left n hq
  rw [strided_length xs hc, hlen]
  refine Nat.div_eq_of_lt_le ?_ ?_
  · rcases hfull with rfl | hfull <;> omega
  · rw [Nat.succ_mul]
    omega

/-- A block of `n` elements gives a stride one of them. -/
theorem strided_append {block : List α} (hlen : block.length = n) (hc : c < n) (xs : List α) :
    strided (block ++ xs) c n = block[c] :: strided xs c n := by
  refine List.ext_getElem? fun j => ?_
  rw [strided_getElem? _ hc]
  cases j with
  | zero =>
    rw [Nat.zero_mul, Nat.add_zero, List.getElem?_append_left (hlen.symm ▸ hc), List.getElem?_eq_getElem,
      List.getElem?_cons_zero]
  | succ j =>
    rw [List.getElem?_cons_succ, strided_getElem? _ hc, Nat.succ_mul, List.getElem?_append_right (by omega), hlen]
    congr 1
    omega

/-- A stride's number of elements grows at the positions that leave the remainder `c`. -/
theorem strideCount_succ (hc : c < n) (len : Nat) :
    (len % n = c → (len - c + n - 1) / n = len / n ∧ (len + 1 - c + n - 1) / n = len / n + 1) ∧
    (len % n ≠ c → (len + 1 - c + n - 1) / n = (len - c + n - 1) / n) := by
  have hlen := Nat.div_add_mod' len n
  have hmod := Nat.mod_lt len (Nat.zero_lt_of_lt hc)
  have hcount {m k : Nat} (hlo : k * n ≤ m) (hhi : m < k * n + n) : m / n = k :=
    Nat.div_eq_of_lt_le hlo (by rwa [Nat.succ_mul])
  have hnext : (len / n + 1) * n = len / n * n + n := Nat.succ_mul _ _
  refine ⟨fun heq => ⟨hcount (by omega) (by omega), hcount (by omega) (by omega)⟩, fun hne => ?_⟩
  rcases Nat.lt_or_gt_of_ne hne with hlt | hgt
  · exact (hcount (k := len / n) (by omega) (by omega)).trans (hcount (by omega) (by omega)).symm
  · exact (hcount (k := len / n + 1) (by omega) (by omega)).trans (hcount (by omega) (by omega)).symm

/-- The positions of a stride below a bound are those that leave the remainder `c`. -/
theorem filterMap_range_mod (f : Nat → Option α) (hc : c < n) (len : Nat) :
    ((List.range len).filterMap fun j => if j % n = c then f j else none) =
      (List.range ((len - c + n - 1) / n)).filterMap fun j => f (c + j * n) := by
  induction len with
  | zero => simp [Nat.div_eq_of_lt (by omega : n - 1 < n)]
  | succ len ih =>
    rw [List.range_succ, List.filterMap_append, ih]
    by_cases hlen : len % n = c
    · obtain ⟨hcount, hnext⟩ := (strideCount_succ hc len).1 hlen
      have hpos : c + len / n * n = len := by rw [← hlen, Nat.mod_add_div']
      rw [hcount, hnext, List.range_succ, List.filterMap_append]
      simp only [List.filterMap_cons, List.filterMap_nil, hlen, hpos, if_true]
    · rw [(strideCount_succ hc len).2 hlen]
      simp only [List.filterMap_cons, List.filterMap_nil, hlen, if_false, List.append_nil]

/-- The stride of a list by remainders. -/
theorem strided_eq_filterMap (xs : List α) (hc : c < n) :
    strided xs c n = (List.range xs.length).filterMap fun j => if j % n = c then xs[j]? else none :=
  (filterMap_range_mod (fun j => xs[j]?) hc xs.length).symm

end

/-- Settles O45: each sentinel symbol is a block of `n` of its copies. -/
theorem ofdmRoundRobin : Obligations.OfdmRoundRobin := by
  intro n ch sent syms hch
  induction sent with
  | nil => rfl
  | cons x sent ih =>
    have hblock : ofdmCombined n (x :: sent) syms = List.replicate n x ++ ofdmCombined n sent syms := by
      rw [ofdmCombined, List.flatMap_cons, List.append_assoc, ofdmCombined]
    rw [hblock, strided_append List.length_replicate hch, List.getElem_replicate, ih, List.cons_append]

/-! ### Interleaving (R440) -/

/-- The positions of `q` rows of `n`, row by row. -/
theorem flatMap_range_rows {α : Type} (f : Nat → α) (n q : Nat) :
    ((List.range q).flatMap fun j => (List.range n).map fun ch => f (ch + j * n)) = (List.range (q * n)).map f := by
  induction q with
  | zero => simp
  | succ q ih =>
    rw [List.range_succ, List.flatMap_append, ih, Nat.succ_mul, List.range_add, List.map_append, List.map_map,
      List.flatMap_singleton]
    simp only [Function.comp_def, Nat.add_comm]

theorem map_range_getD {α : Type} (xs : List α) (v : α) : (List.range xs.length).map (fun j => xs.getD j v) = xs :=
  List.ext_getElem (by simp) fun j hj hx => by simp [hx]

theorem Bank.least_of_all {α : Type} {f : α → Nat} {b : Bank α} {q : Nat} (h : b.All fun x => f x = q) :
    b.least f = q := by
  obtain ⟨hfirst, hrest⟩ := List.forall_mem_cons.1 h
  rw [Bank.least, hfirst]
  generalize b.rest = xs at hrest
  induction xs with
  | nil => rfl
  | cons x xs ih =>
    obtain ⟨hx, hxs⟩ := List.forall_mem_cons.1 hrest
    rw [List.foldl_cons, hx, Nat.min_self, ih hxs]

/-- Settles O46: row `j` of the assembled list is element `j` of every channel's stride. -/
theorem assembleUndoesSplit : Obligations.AssembleUndoesSplit := by
  rintro chs syms hchs ⟨q, hq⟩
  have hlength : chs.All fun xs => xs.length = q := by
    intro xs hxs
    rw [hchs, List.mem_map] at hxs
    obtain ⟨ch, hch, rfl⟩ := hxs
    exact strided_length_of_mul (hq.trans (Nat.mul_comm _ _)) (List.mem_range.1 hch)
  have hrow (j : Nat) : (chs.toList.map fun xs => xs.getD (0 + j) 0) =
      (List.range chs.count).map fun ch => syms.getD (ch + j * chs.count) 0 := by
    rw [hchs, List.map_map]
    refine List.map_congr_left fun ch hch => ?_
    simp only [Function.comp_apply, List.getD_eq_getElem?_getD, strided_getElem? _ (List.mem_range.1 hch),
      Nat.zero_add]
  simp only [assembleSymbols, Bank.least_of_all hlength, hrow, Nat.sub_zero]
  rw [flatMap_range_rows fun j => syms.getD j 0, Nat.mul_comm, ← hq, map_range_getD]

end Sys2Proof.Machine
end

section
/-! PROOFS. The samples of a modulation (R367, R371 to R373). -/

namespace Sys2Proof.Machine

/-! ### Symbol slots (R367, R371, R373) -/

section

variable (P : Params) (m : Modulator)

@[simp] theorem zeros_length (n : Nat) : (zeros P n).length = n := List.length_replicate

@[simp] theorem wave_length (p : ToneSet) (x : Byte) : (wave P m p x).length = m.sps * m.expf := by
  simp only [wave, List.length_append, List.length_take, synth_length, zeros_length]
  omega

/-- The parameter set of the channel that draw `k` names (R13, R373). -/
def hopTones (lanes : Bank ToneSet) (k : Nat) : ToneSet := lanes.toList.getD (hop P k lanes.count) lanes.first

theorem getElem?_hop (lanes : Bank ToneSet) (k : Nat) :
    lanes.toList[hop P k lanes.toList.length]? = some (hopTones P lanes k) := by
  have hdraw : hop P k lanes.count < lanes.toList.length := hop_lt P k (Nat.succ_pos _)
  rw [← Bank.count_eq_length, List.getElem?_eq_getElem hdraw, hopTones, List.getD_eq_getElem _ _ hdraw]

theorem waves_length (q : ToneSet) (xs : List Byte) : (waves P m q xs).length = xs.length * (m.sps * m.expf) := by
  rw [waves, flatMap_length_of_blocks (wave_length P m q), Nat.mul_comm]

section

variable (lanes : Bank ToneSet) (k : Nat) (xs : List Byte)

/-- FHSS modulation, slot by slot: symbol `j` is sent with the parameter set of its draw. -/
theorem fhssMod_eq_flatMap :
    fhssMod P m lanes k xs = xs.zipIdx.flatMap fun xj => wave P m (hopTones P lanes (k + xj.2)) xj.1 := by
  rw [fhssMod, List.mapIdx_eq_zipIdx_map, List.flatMap_def]
  rfl

theorem fhssMod_length : (fhssMod P m lanes k xs).length = xs.length * (m.sps * m.expf) := by
  rw [fhssMod_eq_flatMap, flatMap_length_of_blocks fun _ => wave_length .., List.length_zipIdx, Nat.mul_comm]

theorem blockAt_fhssMod {j : Nat} (hj : j < xs.length) :
    blockAt (fhssMod P m lanes k xs) (m.sps * m.expf) j = wave P m (hopTones P lanes (k + j)) xs[j] := by
  rw [fhssMod_eq_flatMap, blockAt_flatMap (fun _ => wave_length ..) _ (by rwa [List.length_zipIdx]),
    List.getElem_zipIdx, Nat.zero_add]

end

theorem modulate_bfsk {q : ToneSet} (h : m.body = .bfsk q) (k : Nat) (sent syms : List Byte) :
    modulate P m k sent syms = waves P m q (sent ++ syms) := by
  rw [modulate, h]

theorem modulate_ofdm {base : Plan} {width : Number} {lanes : Bank OfdmLane} (h : m.body = .ofdm base width lanes)
    (k : Nat) (sent syms : List Byte) : modulate P m k sent syms = ofdmMod P m lanes sent syms := by
  rw [modulate, h]

theorem modulate_fhss {base : Plan} {width : Number} {lanes : Bank ToneSet} (h : m.body = .fhss base width lanes)
    (k : Nat) (sent syms : List Byte) : modulate P m k sent syms = fhssMod P m lanes k (sent ++ syms) := by
  rw [modulate, h]

end

/-! ### The sum of the channels (R372) -/

/-- A running maximum is its start or a value it has met. -/
theorem foldl_max_attained {α : Type} (f : α → Nat) (xs : List α) (m : Nat) :
    xs.foldl (fun m x => max m (f x)) m = m ∨ ∃ x ∈ xs, f x = xs.foldl (fun m x => max m (f x)) m := by
  induction xs generalizing m with
  | nil => exact .inl rfl
  | cons y ys ih =>
    rw [List.foldl_cons, List.exists_mem_cons_iff]
    rcases ih (max m (f y)) with h | h
    · rw [h]
      omega
    · exact .inr (.inr h)

/-- Some channel is the greatest. -/
theorem Bank.exists_eq_greatest {α : Type} (f : α → Nat) (b : Bank α) : ∃ x ∈ b.toList, f x = b.greatest f := by
  rw [Bank.toList, List.exists_mem_cons_iff]
  exact (foldl_max_attained f b.rest (f b.first)).imp_left Eq.symm

section

variable {P : Params} {n i : Nat}

theorem padSamples_length {z : List Number} (hz : z.length ≤ n) : (padSamples P n z).length = n := by
  rw [padSamples, List.length_append, zeros_length]
  omega

theorem padSamples_getD (z : List Number) :
    (padSamples P n z).getD i (P.num.ofInt 0) = z.getD i (P.num.ofInt 0) := by
  rcases Nat.lt_or_ge i z.length with hi | hi
  · exact List.getD_append _ _ _ _ hi
  · rw [padSamples, List.getD_append_right _ _ _ _ hi, List.getD_eq_default _ _ hi, zeros,
      List.getD_eq_getElem?_getD, List.getElem?_getD_replicate_default_eq]

theorem addSamples_getD {N : NumOps} {xs ys : List Number} {v : Number} (hx : i < xs.length) (hy : i < ys.length) :
    (addSamples N xs ys).getD i v = N.add (xs.getD i v) (ys.getD i v) := by
  simp [addSamples, List.getD_eq_getElem?_getD, hx, hy]

theorem addSamples_padded_length {acc z : List Number} (hacc : acc.length = n) (hz : z.length ≤ n) :
    (addSamples P.num acc (padSamples P n z)).length = n := by
  rw [addSamples, List.length_zipWith, hacc, padSamples_length hz, Nat.min_self]

/-- Adding channels to a sum as long as the longest leaves its length. -/
theorem foldl_addSamples_length {zs : List (List Number)} (hzs : ∀ z ∈ zs, z.length ≤ n) {acc : List Number}
    (hacc : acc.length = n) :
    (zs.foldl (fun acc z => addSamples P.num acc (padSamples P n z)) acc).length = n := by
  induction zs generalizing acc with
  | nil => exact hacc
  | cons z zs ih =>
    obtain ⟨hz, hzs⟩ := List.forall_mem_cons.1 hzs
    exact ih hzs (addSamples_padded_length hacc hz)

/-- Each of its samples is then the channels' samples added in order. -/
theorem foldl_addSamples_getD {zs : List (List Number)} (hzs : ∀ z ∈ zs, z.length ≤ n) {acc : List Number}
    (hacc : acc.length = n) (hi : i < n) :
    (zs.foldl (fun acc z => addSamples P.num acc (padSamples P n z)) acc).getD i (P.num.ofInt 0) =
      (zs.map fun z => z.getD i (P.num.ofInt 0)).foldl P.num.add (acc.getD i (P.num.ofInt 0)) := by
  induction zs generalizing acc with
  | nil => rfl
  | cons z zs ih =>
    obtain ⟨hz, hzs⟩ := List.forall_mem_cons.1 hzs
    rw [List.foldl_cons, List.map_cons, List.foldl_cons, ih hzs (addSamples_padded_length hacc hz),
      addSamples_getD (hacc.symm ▸ hi) ((padSamples_length hz).symm ▸ hi), padSamples_getD]

theorem sumLanes_length (zs : Bank (List Number)) : (sumLanes P zs).length = zs.greatest List.length := by
  obtain ⟨hfirst, hrest⟩ := List.forall_mem_cons.1 (zs.le_greatest List.length)
  exact foldl_addSamples_length hrest (padSamples_length hfirst)

/-- Each sample of the sum is the channels' samples added from channel 0 on. -/
theorem sumLanes_getElem? {zs : Bank (List Number)} (hi : i < (sumLanes P zs).length) :
    (sumLanes P zs)[i]? = some ((zs.rest.map fun z => z.getD i (P.num.ofInt 0)).foldl P.num.add
      (zs.first.getD i (P.num.ofInt 0))) := by
  obtain ⟨hfirst, hrest⟩ := List.forall_mem_cons.1 (zs.le_greatest List.length)
  have hsum := foldl_addSamples_getD (P := P) (acc := padSamples P _ zs.first) hrest
    (padSamples_length hfirst) (sumLanes_length zs ▸ hi)
  rw [padSamples_getD] at hsum
  rw [List.getElem?_eq_getElem hi, ← List.getD_eq_getElem _ (P.num.ofInt 0) hi, ← hsum]
  rfl

end

/-! ### OFDM channel by channel (R372) -/

section

variable (P : Params) (m : Modulator) (lanes : Bank OfdmLane) (sent syms : List Byte)

/-- The channels' filtered outputs, before they are added (R372). -/
def ofdmOutputs : Bank (List Number) :=
  ⟨ofdmLaneOutput P m (ofdmCombined lanes.count sent syms) lanes.count 0 lanes.first,
    lanes.rest.mapIdx fun j => ofdmLaneOutput P m (ofdmCombined lanes.count sent syms) lanes.count (j + 1)⟩

theorem ofdmMod_of_ne_nil (h : sent ++ syms ≠ []) :
    ofdmMod P m lanes sent syms = sumLanes P (ofdmOutputs P m lanes sent syms) := by
  rw [ofdmMod, if_neg fun hnil => h (by rw [hnil.1, hnil.2, List.append_nil])]
  rfl

/-- Channel `ch` carries the positions that leave the remainder `ch`. -/
theorem ofdmOutputs_toList :
    (ofdmOutputs P m lanes sent syms).toList = lanes.toList.mapIdx fun ch l =>
      P.applyFilter l.filt (((List.range (ofdmCombined lanes.count sent syms).length).filterMap fun j =>
        if j % lanes.count = ch then (ofdmCombined lanes.count sent syms)[j]? else none).flatMap
          (wave P m l.tones)) := by
  have hmodel : (ofdmOutputs P m lanes sent syms).toList =
      lanes.toList.mapIdx (ofdmLaneOutput P m (ofdmCombined lanes.count sent syms) lanes.count) := by
    rw [Bank.toList, Bank.toList, List.mapIdx_cons]
    rfl
  rw [hmodel]
  refine List.ext_getElem (by simp) fun ch hch hch' => ?_
  rw [List.length_mapIdx, ← Bank.count_eq_length] at hch
  rw [List.getElem_mapIdx, List.getElem_mapIdx, ofdmLaneOutput, waves, strided_eq_filterMap _ hch]

end

/-- Settles O44: the slots are those of the symbols in order, and the channels of OFDM are added. -/
theorem modulationLength : Obligations.ModulationLength := by
  intro P m k sent syms N len slot out
  refine ⟨fun q hbody => ?_, fun base width lanes hbody => ?_, ?_, fun base width lanes hbody hne => ?_⟩
  · have hout : out = waves P m q (sent ++ syms) := modulate_bfsk P m hbody k sent syms
    rw [hout]
    exact ⟨by rw [waves_length, List.length_append], fun j hj => blockAt_flatMap (wave_length P m q) _ hj⟩
  · have hout : out = fhssMod P m lanes k (sent ++ syms) := modulate_fhss P m hbody k sent syms
    rw [hout]
    exact ⟨by rw [fhssMod_length, List.length_append], fun j hj =>
      ⟨_, getElem?_hop P lanes (k + j), blockAt_fhssMod P m lanes k _ hj⟩⟩
  · rintro rfl rfl
    exact modulate_nil P m k
  · intro n combined share z
    have hz : z = (ofdmOutputs P m lanes sent syms).toList := (ofdmOutputs_toList ..).symm
    have hout : out = sumLanes P (ofdmOutputs P m lanes sent syms) :=
      (modulate_ofdm P m hbody k sent syms).trans (ofdmMod_of_ne_nil P m lanes sent syms hne)
    rw [hz, hout, sumLanes_length]
    refine ⟨Bank.le_greatest List.length _, Bank.exists_eq_greatest List.length _, fun i hi => ?_⟩
    rw [← sumLanes_length] at hi
    exact sumLanes_getElem? hi

end Sys2Proof.Machine
end

section
/-! PROOFS. What MOD_INFO and DEM_INFO report (R380, R445). -/

namespace Sys2Proof.Machine

/-! ### The code of a kind (R71) -/

theorem setWidth_code_bfsk : ModKind.bfsk.code.setWidth 64 = (0 : Bits64) := rfl

theorem setWidth_code_ofdm : ModKind.ofdm.code.setWidth 64 = (1 : Bits64) := rfl

theorem setWidth_code_fhss : ModKind.fhss.code.setWidth 64 = (2 : Bits64) := rfl

/-! ### MOD_INFO (R380) -/

/-- The registers MOD_INFO writes (R380). -/
def reportMod (s : State) (m : Modulator) : State :=
  (((s.setRNat 0 m.channels).setR 1 (m.body.kind.code.setWidth 64)).setRNat 2 (m.sps * m.expf)).setRFs
    m.body.info.f0 m.body.info.f1 m.body.info.deltaF m.body.info.bw

section

variable {m : Modulator} {base : Plan} {width : Number} (s : State)

theorem reportMod_bfsk {p : ToneSet} (h : m.body = .bfsk p) : reportMod s m =
    (((s.setRNat 0 1).setR 1 0).setRNat 2 (m.sps * m.expf)).setRFs p.f0 p.f1 p.deltaF p.bw := by
  simp only [reportMod, Modulator.channels, ModBody.kind, ModBody.info, h, setWidth_code_bfsk]

theorem reportMod_ofdm {lanes : Bank OfdmLane} (h : m.body = .ofdm base width lanes) : reportMod s m =
    (((s.setRNat 0 lanes.toList.length).setR 1 1).setRNat 2 (m.sps * m.expf)).setRFs
      base.f0 base.f1 base.deltaF width := by
  simp only [reportMod, Modulator.channels, ModBody.kind, ModBody.info, h, setWidth_code_ofdm, Bank.count_eq_length]

theorem reportMod_fhss {lanes : Bank ToneSet} (h : m.body = .fhss base width lanes) : reportMod s m =
    (((s.setRNat 0 lanes.toList.length).setR 1 2).setRNat 2 (m.sps * m.expf)).setRFs
      base.f0 base.f1 base.deltaF width := by
  simp only [reportMod, Modulator.channels, ModBody.kind, ModBody.info, h, setWidth_code_fhss, Bank.count_eq_length]

end

section

variable {a b : Handle} {m : Modulator} {s t : State} (hb : Holds s b (.mod m)) (ht : reportMod s m = t)
include hb ht

/-- Without a destination MOD_INFO writes the registers alone. -/
theorem exec_modInfo_registers (ha : a = 0) : exec (.modInfo a b) s = .next (afterOk t) := by
  have hmod : existing s b Obj.asMod = .ok m := existing_of_holds hb rfl
  have habsent : optionalFresh s 0 = .ok () := optionalFresh_eq_ok.2 (.inl rfl)
  refine exec_afterOk ?_
  simp only [commandRule, modInfoRule, ha, habsent, hmod, ok_bind, if_true, ← ht]
  rfl

/-- With a destination it writes the carriers too. -/
theorem exec_modInfo_carriers {cs : List Number} (hcs : m.body.centers = cs) (ha : Vacant s a)
    (hfits : cs.length ≤ Config.params.maxElems) :
    exec (.modInfo a b) s = .next (afterOk (t.putObj a (.reals cs))) := by
  obtain ⟨hne, hempty⟩ := ha
  have hmod : existing s b Obj.asMod = .ok m := existing_of_holds hb rfl
  have hfresh : optionalFresh s a = .ok () := optionalFresh_eq_ok.2 (.inr hempty)
  refine exec_afterOk ?_
  simp only [commandRule, modInfoRule, hfresh, hmod, ok_bind, hne, if_false, hcs, requireElems_of hfits, ← ht]
  rfl

end

/-! ### DEM_INFO (R445) -/

/-- DEM_INFO writes the registers from the demodulator and its channel 0. -/
theorem exec_demInfo {a : Handle} {d : Demodulator} {ch : Chan} {n : Nat} {kind : Bits64} {s : State}
    (ha : Holds s a (.dem d)) (hn : d.channels = n) (hkind : d.body.kind.code.setWidth 64 = kind)
    (hch : d.body.channel0 = ch) :
    exec (.demInfo a) s = .next (afterOk ((((((s.setRNat 0 n).setR 1 kind).setRNat 2 d.decim).setRNat 3
      d.gardnerSps)).setRFs ch.t0 ch.t1 ch.tones.deltaF d.thr)) := by
  have hdem : existing s a Obj.asDem = .ok d := existing_of_holds ha rfl
  refine exec_afterOk ?_
  simp only [commandRule, demInfoRule, hdem, ok_bind, hn, hkind, hch, done]

/-- Settles O47: what is reported is read off the object's body, kind by kind. -/
theorem instanceInfo : Obligations.InstanceInfo := by
  refine ⟨fun a b m s hb => ⟨fun p hbody => ?_, fun base width lanes hbody => ?_, fun base width lanes hbody => ?_⟩,
    fun a d s ha => ⟨fun ch hbody => ?_, fun base width chans hbody => ?_, fun base width chans lp hbody => ?_⟩⟩
  · have hcs : m.body.centers = [p.carrier] := by rw [hbody, ModBody.centers]
    exact ⟨exec_modInfo_registers hb (reportMod_bfsk s hbody),
      fun ha => exec_modInfo_carriers hb (reportMod_bfsk s hbody) hcs ha
        (le_maxElems (by rw [List.length_singleton]; decide))⟩
  · have hcs : m.body.centers = lanes.toList.map fun l => l.tones.carrier := by rw [hbody, ModBody.centers]
    exact ⟨exec_modInfo_registers hb (reportMod_ofdm s hbody), fun ha hfits =>
      exec_modInfo_carriers hb (reportMod_ofdm s hbody) hcs ha (by rwa [List.length_map])⟩
  · have hcs : m.body.centers = lanes.toList.map fun p => p.carrier := by rw [hbody, ModBody.centers]
    exact ⟨exec_modInfo_registers hb (reportMod_fhss s hbody), fun ha hfits =>
      exec_modInfo_carriers hb (reportMod_fhss s hbody) hcs ha (by rwa [List.length_map])⟩
  · exact exec_demInfo ha (by rw [Demodulator.channels, hbody]) (by rw [hbody, DemBody.kind, setWidth_code_bfsk])
      (by rw [hbody, DemBody.channel0])
  · exact exec_demInfo ha (by rw [Demodulator.channels, hbody]; rfl)
      (by rw [hbody, DemBody.kind, setWidth_code_ofdm]) (by rw [hbody, DemBody.channel0])
  · exact exec_demInfo ha (by rw [Demodulator.channels, hbody]; rfl)
      (by rw [hbody, DemBody.kind, setWidth_code_fhss]) (by rw [hbody, DemBody.channel0])

end Sys2Proof.Machine
end

section
/-! PROOFS. What a demodulator is built of (R410 to R416). -/

namespace Sys2Proof.Machine

/-! ### A channel and its design context (R412 to R416) -/

/-- The design context of a parameter set: its sub-band, where it has one, is centred on its carrier (R415). -/
def designCtx (sps rate dsps : Nat) (q : ToneSet) (width : Option Number) : DesignCtx :=
  ⟨sps, rate, dsps, q, width.map fun w => ⟨q.carrier, w⟩⟩

section

variable {P : Params} {g : Cfg} {sps rate dsps : Nat} {sepi : Int} {width centre : Number}

/-- A parameter set is the one planned for its own carrier where the planner answers its four numbers. -/
theorem planTones_self {q : ToneSet} :
    planTones P sps rate sepi q.carrier = .ok q ↔
      P.planFSK sps rate q.carrier sepi = some ⟨q.f0, q.f1, q.deltaF, q.bw⟩ :=
  planTones_eq_ok.trans (and_iff_right rfl)

theorem planTones_iff_self {q : ToneSet} :
    planTones P sps rate sepi centre = .ok q ↔
      centre = q.carrier ∧ planTones P sps rate sepi q.carrier = .ok q := by
  rw [planTones_self, planTones_eq_ok]

theorem channelCtx_eq_ok {ctx : DesignCtx} :
    channelCtx P sps rate dsps sepi width centre = .ok ctx ↔ ∃ q, centre = q.carrier ∧
      planTones P sps rate sepi q.carrier = .ok q ∧ designCtx sps rate dsps q (some width) = ctx := by
  simp only [channelCtx, bind_eq_ok_iff, pure_eq_ok_iff, planTones_iff_self (centre := centre), and_assoc]
  refine exists_congr fun q => and_congr_right ?_
  rintro rfl
  rfl

/-- What is built for a centre, and stores the parameter set it was built with, is what that parameter set
builds (R416). -/
theorem channelCtx_bind_eq_ok {β : Type} {f : DesignCtx → Except Failure β} {key : β → ToneSet}
    (hf : ∀ ctx, Yields (fun y => key y = ctx.tones) (f ctx)) {y : β} :
    channelCtx P sps rate dsps sepi width centre >>= f = .ok y ↔ centre = (key y).carrier ∧
      planTones P sps rate sepi (key y).carrier = .ok (key y) ∧
      f (designCtx sps rate dsps (key y) (some width)) = .ok y := by
  simp only [bind_eq_ok_iff, channelCtx_eq_ok]
  constructor
  · rintro ⟨ctx, ⟨q, hcentre, hplan, rfl⟩, hy⟩
    have hq : key y = q := hf _ y hy
    exact hq ▸ ⟨hcentre, hplan, hy⟩
  · rintro ⟨hcentre, hplan, hy⟩
    exact ⟨_, ⟨key y, hcentre, hplan, rfl⟩, hy⟩

/-- The channels of a bank are those of its centres, which they store as their carriers (R416). -/
theorem buildBank_channels_eq_ok {β : Type} {f : DesignCtx → Except Failure β} {key : β → ToneSet}
    (hf : ∀ ctx, Yields (fun y => key y = ctx.tones) (f ctx)) {centers : Bank Number} {chans : Bank β} :
    buildBank (fun c => channelCtx P sps rate dsps sepi width c >>= f) centers = .ok chans ↔
      centers = chans.map (fun ch => (key ch).carrier) ∧
      chans.All fun ch => planTones P sps rate sepi (key ch).carrier = .ok (key ch) ∧
        f (designCtx sps rate dsps (key ch) (some width)) = .ok ch :=
  buildBank_eq_ok fun _ _ => channelCtx_bind_eq_ok hf

/-! ### The channels by kind (R416) -/

/-- A BFSK demodulator is the channel that its carrier's parameter set builds. -/
theorem buildDemBody_bfsk_eq_ok_self {body : DemBody} :
    buildDemBody P g sps rate dsps sepi .bfsk = .ok body ↔ ∃ ch, body = .bfsk ch ∧
      ch.chan.tones.carrier = g.carrier ∧ planTones P sps rate sepi ch.chan.tones.carrier = .ok ch.chan.tones ∧
      buildSmoothChan P (designCtx sps rate dsps ch.chan.tones none) = .ok ch := by
  rw [buildDemBody_bfsk_eq_ok]
  constructor
  · rintro ⟨q, ch, hplan, hch, rfl⟩
    have hq : ch.chan.tones = q := buildSmoothChan_tones ch hch
    obtain ⟨hcarrier, hself⟩ := planTones_iff_self.1 hplan
    exact ⟨ch, rfl, by rw [hq, hcarrier], hq ▸ hself, hq ▸ hch⟩
  · rintro ⟨ch, rfl, hcarrier, hplan, hch⟩
    exact ⟨_, ch, hcarrier ▸ hplan, hch, rfl⟩

/-- An OFDM demodulator's channels are those of the tiling's centres, which they store as their carriers. -/
theorem buildDemBody_ofdm_eq_ok {body : DemBody} :
    buildDemBody P g sps rate dsps sepi .ofdm = .ok body ↔ ∃ base width chans, body = .ofdm base width chans ∧
      planBands P g sps rate sepi = .ok ⟨base, width, chans.map fun ch => ch.chan.tones.carrier⟩ ∧
      chans.All fun ch => planTones P sps rate sepi ch.chan.tones.carrier = .ok ch.chan.tones ∧
        buildSmoothChan P (designCtx sps rate dsps ch.chan.tones (some width)) = .ok ch := by
  simp only [buildDemBody, bind_eq_ok_iff, pure_eq_ok_iff,
    buildBank_channels_eq_ok fun _ => buildSmoothChan_tones]
  constructor
  · rintro ⟨⟨base, width, -⟩, hbands, chans, ⟨rfl, hchans⟩, rfl⟩
    exact ⟨base, width, chans, rfl, hbands, hchans⟩
  · rintro ⟨base, width, chans, rfl, hbands, hchans⟩
    exact ⟨_, hbands, chans, ⟨rfl, hchans⟩, rfl⟩

/-- The same of an FHSS demodulator, whose one stage-6 filter is designed for channel 0. -/
theorem buildDemBody_fhss_eq_ok {body : DemBody} :
    buildDemBody P g sps rate dsps sepi .fhss = .ok body ↔ ∃ base width chans lp6c,
      body = .fhss base width chans lp6c ∧
      planBands P g sps rate sepi = .ok ⟨base, width, chans.map fun ch => ch.tones.carrier⟩ ∧
      (chans.All fun ch => planTones P sps rate sepi ch.tones.carrier = .ok ch.tones ∧
        buildChan P (designCtx sps rate dsps ch.tones (some width)) = .ok ch) ∧
      designLP P (P.plan.smoothLP (designCtx sps rate dsps chans.first.tones (some width))) = some lp6c := by
  simp only [buildDemBody, buildSmooth, bind_eq_ok_iff, pure_eq_ok_iff, built_eq_ok,
    buildBank_channels_eq_ok fun _ => buildChan_tones]
  constructor
  · rintro ⟨⟨base, width, -⟩, hbands, chans, ⟨rfl, hchans⟩, lp6c, hlp, rfl⟩
    exact ⟨base, width, chans, lp6c, rfl, hbands, hchans, hlp⟩
  · rintro ⟨base, width, chans, lp6c, rfl, hbands, hchans, hlp⟩
    exact ⟨_, hbands, chans, ⟨rfl, hchans⟩, lp6c, hlp, rfl⟩

end

/-- Settles O48: the configuration is checked, and then each channel is what the parameter set it stores
builds. -/
theorem bfskDemodulatorFields : Obligations.BfskDemodulatorFields := by
  intro P g m d N legal constants bands context channel smooth
  have hlegal : demConfigLegal N g m = true ↔ legal := by
    cases m <;> simp [demConfigLegal_iff, kindConfigLegal, legal, N, and_assoc]
  have hchannel (ch : Chan) (width : Option Number) :
      planTones P d.sps d.rate d.sepi ch.tones.carrier = .ok ch.tones ∧
        buildChan P (designCtx d.sps d.rate d.dsps ch.tones width) = .ok ch ↔ channel ch width := by
    rw [planTones_self, buildChan_eq_ok, designCtx, eq_self_iff_true, true_and]
    rfl
  have hsmooth (ch : SmoothChan) (width : Option Number) :
      planTones P d.sps d.rate d.sepi ch.chan.tones.carrier = .ok ch.chan.tones ∧
        buildSmoothChan P (designCtx d.sps d.rate d.dsps ch.chan.tones width) = .ok ch ↔
      channel ch.chan width ∧ smooth ch.chan.tones width = some ch.lp6 := by
    rw [buildSmoothChan_eq_ok, ← and_assoc, hchannel]
    rfl
  constructor
  · rintro ⟨-, -, -, hpos, hle, -⟩ ⟨hsps, -, hdsps, -, -, hdecim, hgardner, -⟩
    rw [hdecim, hgardner, Nat.le_div_iff_mul_le (by omega)]
    omega
  · rw [buildDem_eq_ok, hlegal]
    cases m with
    | bfsk => simp only [buildDemBody_bfsk_eq_ok_self, hsmooth, constants, and_assoc]
    | ofdm =>
      simp only [buildDemBody_ofdm_eq_ok, planBands_eq_ok, Bank.toList_map, Bank.All, hsmooth, bands, constants,
        and_assoc]
      rfl
    | fhss =>
      simp only [buildDemBody_fhss_eq_ok, planBands_eq_ok, Bank.toList_map, Bank.All, hchannel, bands, constants,
        and_assoc]
      rfl

end Sys2Proof.Machine
end

section
/-! PROOFS. The steps between a demodulator's filters, sample by sample (R420, R424 to R426). -/

namespace Sys2Proof.Machine

/-! ### Lists -/

/-- Of consecutive blocks of `n` elements, position `c` of block `j`. -/
theorem flatMap_getElem?_of_blocks {α β : Type} {f : α → List β} {n : Nat} (hf : ∀ x, (f x).length = n)
    {c : Nat} (hc : c < n) (xs : List α) (j : Nat) :
    (xs.flatMap f)[j * n + c]? = xs[j]?.bind fun x => (f x)[c]? := by
  induction xs generalizing j with
  | nil => rfl
  | cons x xs ih =>
    rw [List.flatMap_cons]
    cases j with
    | zero => rw [Nat.zero_mul, Nat.zero_add, List.getElem?_append_left (hf x ▸ hc)]; rfl
    | succ j =>
      rw [List.getElem?_append_right (by rw [hf, Nat.succ_mul]; omega), hf, List.getElem?_cons_succ, ← ih]
      congr 1
      rw [Nat.succ_mul]
      omega

/-- The elements between two bounds, picked out by their positions. -/
theorem filterMap_range_window {α : Type} (xs : List α) (lo hi : Nat) :
    ((List.range xs.length).filterMap fun j => if lo ≤ j ∧ j < hi then xs[j]? else none) =
      (xs.take hi).drop lo := by
  induction xs generalizing lo hi with
  | nil => simp
  | cons x xs ih =>
    have htail (lo hi : Nat) : ((List.range xs.length).filterMap fun j =>
        if lo ≤ j + 1 ∧ j + 1 < hi then xs[j]? else none) = (xs.take (hi - 1)).drop (lo - 1) := by
      rw [← ih]
      refine List.filterMap_congr fun j _ => ?_
      congr 1
      ext
      omega
    rw [List.length_cons, List.range_succ_eq_map, List.filterMap_cons, List.filterMap_map]
    simp only [Function.comp_def, Nat.succ_eq_add_one, List.getElem?_cons_succ, htail]
    cases hi with
    | zero => simp
    | succ hi => cases lo <;> simp

/-! ### The steps (R420, R424 to R426) -/

section

variable (N : NumOps) {d w j : Nat} (xs ys : List Number)

theorem stage4_length (hd : 0 < d) : (stage4 d xs).length = (xs.length + d - 1) / d := strided_length xs hd

theorem stage4_getElem? (hd : 0 < d) : (stage4 d xs)[j]? = xs[j * d]? := by
  rw [stage4, strided_getElem? xs hd, Nat.zero_add]

theorem zstuff_length : (zstuff N xs).length = 2 * xs.length :=
  flatMap_length_of_blocks (n := 2) (fun _ => rfl) xs

theorem zstuff_getElem?_even : (zstuff N xs)[2 * j]? = xs[j]? := by
  rw [zstuff, Nat.mul_comm]
  exact (flatMap_getElem?_of_blocks (n := 2) (fun _ => rfl) Nat.two_pos xs j).trans (Option.bind_fun_some _)

theorem zstuff_getElem?_odd (hj : j < xs.length) : (zstuff N xs)[2 * j + 1]? = some (N.ofInt 0) := by
  rw [zstuff, Nat.mul_comm, flatMap_getElem?_of_blocks (n := 2) (fun _ => rfl) Nat.one_lt_two,
    List.getElem?_eq_getElem hj]
  rfl

/-- A list is normalized sample by sample. -/
theorem norm_eq_map :
    Machine.norm N xs = xs.map fun v => if N.eq (peak N xs) (N.ofInt 0) then v else N.div v (peak N xs) := by
  rw [Machine.norm]
  split <;> simp

theorem norm_length : (Machine.norm N xs).length = xs.length := by
  rw [norm_eq_map, List.length_map]

theorem norm_getElem? {v : Number} (hv : xs[j]? = some v) :
    (Machine.norm N xs)[j]? = some (if N.eq (peak N xs) (N.ofInt 0) then v else N.div v (peak N xs)) := by
  rw [norm_eq_map, List.getElem?_map, hv, Option.map_some]

theorem stage5_length : (stage5 N xs ys).length = min xs.length ys.length := by
  rw [stage5, List.length_zipWith, List.length_map, norm_length, norm_length]

theorem stage5_getElem? {x y : Number} (hx : (Machine.norm N xs)[j]? = some x)
    (hy : (Machine.norm N ys)[j]? = some y) : (stage5 N xs ys)[j]? = some (mergeSample N x (N.neg y)) :=
  List.getElem?_zipWith_eq_some.2 ⟨x, N.neg y, hx, by rw [List.getElem?_map, hy, Option.map_some], rfl⟩

theorem movingAverage_length : (movingAverage N w xs).length = xs.length := by
  rw [movingAverage, List.length_map, List.length_range]

/-- The average at `j` is over the samples less than `w` before it and itself. -/
theorem movingAverage_getElem? (hj : j < xs.length) : (movingAverage N w xs)[j]? =
    some (N.div (sumOf N ((List.range xs.length).filterMap fun k => if j < k + w ∧ k ≤ j then xs[k]? else none))
      (N.ofInt w)) := by
  have hwindow : ((List.range xs.length).filterMap fun k => if j < k + w ∧ k ≤ j then xs[k]? else none) =
      (xs.take (j + 1)).drop (j + 1 - w) := by
    rw [← filterMap_range_window]
    refine List.filterMap_congr fun k _ => ?_
    congr 1
    ext
    omega
  rw [movingAverage, List.getElem?_map, List.getElem?_range hj, Option.map_some, hwindow]

theorem removeMean_length : (removeMean N xs).length = xs.length := List.length_map ..

theorem removeMean_getElem? {v : Number} (hv : xs[j]? = some v) :
    (removeMean N xs)[j]? = some (N.sub v (N.div (sumOf N xs) (N.ofInt xs.length))) := by
  have hne : xs.length ≠ 0 := Nat.ne_zero_of_lt (List.getElem?_eq_some_iff.1 hv).1
  rw [removeMean, List.getElem?_map, hv, Option.map_some, meanOf, if_neg hne]

end

/-- Settles O49, step by step. -/
theorem stageLengths : Obligations.StageLengths := by
  intro N d w xs ys hd zero total
  exact ⟨stage4_length xs hd, fun _ _ => stage4_getElem? xs hd, zstuff_length N xs,
    fun _ hj => ⟨zstuff_getElem?_even N xs, zstuff_getElem?_odd N xs hj⟩, norm_length N xs,
    fun _ _ hv => norm_getElem? N xs hv, stage5_length N xs ys, fun _ _ _ hx hy => stage5_getElem? N xs ys hx hy,
    movingAverage_length N xs, fun _ hi => movingAverage_getElem? N xs hi, removeMean_length N xs,
    fun _ _ hv => removeMean_getElem? N xs hv⟩

end Sys2Proof.Machine
end

section
/-! PROOFS. The demodulator's commands DEM_RUN and DEM_SOFT (R428 to R432). -/

namespace Sys2Proof.Machine

/-! ### The shortest and the longest channel (R429, R430, R440) -/

section

variable {α : Type} (f : α → Nat) (b : Bank α)

theorem Bank.min?_map : (b.toList.map f).min? = some (b.least f) := by
  rw [Bank.toList, List.map_cons, List.min?_cons', List.foldl_map, Bank.least]

theorem Bank.greatest_le_iff {n : Nat} : b.greatest f ≤ n ↔ ∀ x ∈ b.toList, f x ≤ n := by
  refine ⟨fun h x hx => (b.le_greatest f x hx).trans h, fun h => ?_⟩
  obtain ⟨x, hx, hgreatest⟩ := b.exists_eq_greatest f
  exact hgreatest ▸ h x hx

end

/-- The least of two lists together is the lesser of their least. -/
theorem min?_append_of_eq_some {xs ys : List Nat} {m n : Nat} (hx : xs.min? = some m) (hy : ys.min? = some n) :
    (xs ++ ys).min? = some (min m n) := by
  obtain ⟨hm, hxs⟩ := List.min?_eq_some_iff.1 hx
  obtain ⟨hn, hys⟩ := List.min?_eq_some_iff.1 hy
  refine List.min?_eq_some_iff.2 ⟨?_, fun k hk => ?_⟩
  · rcases min_choice m n with h | h
    · rw [h]
      exact List.mem_append_left _ hm
    · rw [h]
      exact List.mem_append_right _ hn
  · rcases List.mem_append.1 hk with hk | hk
    · exact (Nat.min_le_left m n).trans (hxs k hk)
    · exact (Nat.min_le_right m n).trans (hys k hk)

/-! ### What the two commands share (R200) -/

/-- A command whose rule ends with the capacity check and its writes (R200). -/
theorem exec_of_requireElems {i : Instr} {s t : State} {n : Nat}
    (h : commandRule Config.params i s = (requireElems Config.params n >>= fun _ => done t)) :
    exec i s = .next (if n ≤ Config.params.maxElems then afterOk t else afterFailure i s .capacity) := by
  split
  case isTrue hfits =>
    rw [requireElems_of hfits, ok_bind, done] at h
    exact exec_afterOk h
  case isFalse hfull =>
    rw [requireElems_not (Nat.lt_of_not_le hfull), error_bind] at h
    exact exec_afterFailure h

theorem existing_dem {s : State} {h : Handle} {d : Demodulator} (hd : Holds s h (.dem d)) :
    existing s h Obj.asDem = .ok d := existing_of_holds hd rfl

theorem existing_reals {s : State} {h : Handle} {xs : List Number} (hxs : Holds s h (.reals xs)) :
    existing s h Obj.asReals = .ok xs := existing_of_holds hxs rfl

/-! ### DEM_RUN (R430, R432) -/

section

variable {a b c : Handle} {d : Demodulator} {xs : List Number} {s : State} {base : Plan} {width : Number}
  (ha : Vacant s a) (hb : Holds s b (.dem d)) (hc : Holds s c (.reals xs))
include ha hb hc

theorem exec_demRun_bfsk {ch : SmoothChan} {out : List Byte} (hbody : d.body = .bfsk ch)
    (hout : bfskSymbols Config.params d ch xs = out) :
    exec (.demRun a b c) s = .next (if out.length ≤ Config.params.maxElems then
      afterOk (((s.putObj a (.symbols out)).setRNat 0 out.length).setRNat 1 1)
      else afterFailure (.demRun a b c) s .capacity) := by
  refine exec_of_requireElems ?_
  simp only [commandRule, demRunRule, fresh_of_vacant ha, existing_dem hb, existing_reals hc, ok_bind, hbody, hout]

theorem exec_demRun_fhss {chans : Bank Chan} {lp : Filter} {out : List Byte}
    (hbody : d.body = .fhss base width chans lp) (hout : fhssSymbols Config.params d chans lp xs = out) :
    exec (.demRun a b c) s = .next (if out.length ≤ Config.params.maxElems then
      afterOk (((s.putObj a (.symbols out)).setRNat 0 out.length).setRNat 1 chans.count)
      else afterFailure (.demRun a b c) s .capacity) := by
  refine exec_of_requireElems ?_
  simp only [commandRule, demRunRule, fresh_of_vacant ha, existing_dem hb, existing_reals hc, ok_bind, hbody, hout]

theorem exec_demRun_ofdm {chans : Bank SmoothChan} {outs : Bank (List Byte)}
    (hbody : d.body = .ofdm base width chans)
    (houts : (chans.map fun ch => bfskSymbols Config.params d ch xs) = outs) :
    exec (.demRun a b c) s = .next (if outs.greatest List.length ≤ Config.params.maxElems then
      afterOk (((s.putObj a (.chanSyms outs)).setRNat 0 (outs.least List.length)).setRNat 1 outs.count)
      else afterFailure (.demRun a b c) s .capacity) := by
  refine exec_of_requireElems ?_
  simp only [commandRule, demRunRule, fresh_of_vacant ha, existing_dem hb, existing_reals hc, ok_bind, hbody, houts]

end

/-- Settles O50: each kind's symbols are checked against the capacity, every channel's for OFDM. -/
theorem demRunCommand : Obligations.DemRunCommand := by
  intro a b c d xs s ha hb hc P N i symbols
  refine ⟨fun ch hbody => exec_demRun_bfsk ha hb hc hbody rfl,
    fun base width chans lp hbody => exec_demRun_fhss ha hb hc hbody rfl, fun base width chans hbody => ?_⟩
  refine ⟨chans.map fun ch => bfskSymbols P d ch xs, rfl, ?_⟩
  simp only [← Bank.greatest_le_iff, Bank.min?_map, Option.getD_some]
  rw [exec_demRun_ofdm ha hb hc hbody rfl, Bank.count_map, Bank.count_eq_length]

/-! ### The soft track (R428, R429) -/

/-- The sample of the channel whose magnitude is largest, found channel by channel (R429). -/
theorem pickSample_map {α : Type} (N : NumOps) (track : α → List Number) (b : Bank α) (j : Nat) :
    pickSample N (b.map track) j = (b.rest.map fun x => (track x).getD j (N.ofInt 0)).foldl
      (fun best u => if N.gt (N.abs u) (N.abs best) then u else best) ((track b.first).getD j (N.ofInt 0)) := by
  rw [pickSample, Bank.map, List.foldl_map, List.foldl_map]
  rfl

/-! ### DEM_SOFT (R431) -/

section

variable {a b c : Handle} {d : Demodulator} {xs : List Number} {s : State}
  (ha : Vacant s a) (hb : Holds s b (.dem d)) (hc : Holds s c (.reals xs))
include ha hb hc

theorem exec_demSoft_track {out : List Number} (hout : softOf? Config.params d xs = some out) :
    exec (.demSoft a b c) s = .next (if out.length ≤ Config.params.maxElems then
      afterOk ((s.putObj a (.reals out)).setRNat 0 out.length)
      else afterFailure (.demSoft a b c) s .capacity) := by
  refine exec_of_requireElems ?_
  simp only [commandRule, demSoftRule, fresh_of_vacant ha, existing_dem hb, existing_reals hc, ok_bind, hout]

theorem exec_demSoft_refused (hnone : softOf? Config.params d xs = none) :
    exec (.demSoft a b c) s = .next (afterFailure (.demSoft a b c) s .invalidValue) := by
  refine exec_afterFailure ?_
  simp only [commandRule, demSoftRule, fresh_of_vacant ha, existing_dem hb, existing_reals hc, ok_bind, hnone]

end

/-- Settles O51: the stages are the model's, and the FHSS tracks are as long as the shortest branch. -/
theorem demSoftCommand : Obligations.DemSoftCommand := by
  constructor
  · intro P d xs N branch branch0 branch1 smooth
    refine ⟨fun ch => rfl, fun chans lp => ?_⟩
    extract_lets lists n picked
    have hn : n = min ((chans.map branch0).least List.length) ((chans.map branch1).least List.length) := by
      have hmin := min?_append_of_eq_some (Bank.min?_map List.length (chans.map branch0))
        (Bank.min?_map List.length (chans.map branch1))
      rw [Bank.toList_map, Bank.toList_map, ← List.map_append] at hmin
      simp only [n, lists, hmin, Option.getD_some]
    have hpicked (track : Chan → List Number) : combineTracks N (chans.map track) n = picked track :=
      List.map_congr_left fun j _ => pickSample_map N track chans j
    rw [← hpicked branch0, ← hpicked branch1, hn]
    rfl
  · intro a b c d xs s ha hb hc P i
    refine ⟨fun ch hbody => ?_, fun base width chans lp hbody => ?_, fun base width chans hbody => ?_⟩
    · exact exec_demSoft_track ha hb hc (by rw [softOf?, hbody])
    · exact exec_demSoft_track ha hb hc (by rw [softOf?, hbody])
    · exact exec_demSoft_refused ha hb hc (by rw [softOf?, hbody])

end Sys2Proof.Machine
end

section
/-! PROOFS. DEM_ASSEMBLE (R440). -/

namespace Sys2Proof.Machine

/-! ### The interleaved symbols -/

section

variable (chs : Bank (List Byte)) {o : Nat}

/-- Every column has a symbol of each channel. -/
theorem assembleSymbols_length :
    (assembleSymbols chs o).length = chs.toList.length * (chs.least List.length - o) := by
  rw [assembleSymbols, flatMap_length_of_blocks fun _ => List.length_map .., List.length_range]

/-- Column `j` has the channels' symbols at `o + j` in channel order. -/
theorem assembleSymbols_getElem? {j ch : Nat} (hj : j < chs.least List.length - o) (hch : ch < chs.toList.length) :
    (assembleSymbols chs o)[j * chs.toList.length + ch]? = (chs.toList[ch]?).bind fun xs => xs[o + j]? := by
  have hlen : chs.least List.length ≤ (chs.toList[ch]).length :=
    (List.min?_eq_some_iff.1 (Bank.min?_map List.length chs)).2 _ (List.mem_map_of_mem (List.getElem_mem hch))
  rw [assembleSymbols, flatMap_getElem?_of_blocks (fun _ => List.length_map ..) hch, List.getElem?_range hj,
    Option.bind_some, List.getElem?_map, List.getElem?_eq_getElem hch, Option.map_some, Option.bind_some,
    List.getD_eq_getElem _ _ (by omega), List.getElem?_eq_getElem]

end

/-! ### The command -/

section

variable {a b : Handle} {c : IReg} {chs : Bank (List Byte)} {s : State} (ha : Vacant s a)
  (hb : Holds s b (.chanSyms chs))
include ha hb

theorem exec_demAssemble {out : List Byte} (hoffset : 0 ≤ (s.getI c).toInt)
    (hout : assembleSymbols chs (s.getI c).toInt.toNat = out) :
    exec (.demAssemble a b c) s = .next (if out.length ≤ Config.params.maxElems then
      afterOk ((s.putObj a (.symbols out)).setRNat 0 out.length)
      else afterFailure (.demAssemble a b c) s .capacity) := by
  have hchs : existing s b Obj.asChanSyms = .ok chs := existing_of_holds hb rfl
  refine exec_of_requireElems ?_
  simp only [commandRule, demAssembleRule, fresh_of_vacant ha, hchs, ok_bind, require_of (decide_eq_true hoffset),
    hout]

theorem exec_demAssemble_refused (hoffset : (s.getI c).toInt < 0) :
    exec (.demAssemble a b c) s = .next (afterFailure (.demAssemble a b c) s .invalidValue) := by
  have hchs : existing s b Obj.asChanSyms = .ok chs := existing_of_holds hb rfl
  refine exec_afterFailure ?_
  simp only [commandRule, demAssembleRule, fresh_of_vacant ha, hchs, ok_bind,
    require_not (decide_eq_false (Int.not_le.2 hoffset)), error_bind]

end

/-- Settles O52: the columns run to the length of the shortest channel. -/
theorem demAssembleCommand : Obligations.DemAssembleCommand := by
  rintro a b c chs minLen s ha hb hall ⟨xs, hxs, hlen⟩ o n
  have hleast : chs.least List.length = minLen := by
    have hmin : (chs.toList.map List.length).min? = some minLen :=
      List.min?_eq_some_iff.2 ⟨hlen ▸ List.mem_map_of_mem hxs, by simpa using hall⟩
    exact Option.some.inj ((Bank.min?_map List.length chs).symm.trans hmin)
  have hout : (assembleSymbols chs o).length = n * (minLen - o) := by rw [assembleSymbols_length, hleast]
  refine ⟨fun hoffset hfits => ⟨assembleSymbols chs o, ?_, hout, fun j ch hj hch => ?_⟩,
    fun hoffset hfull => ?_, exec_demAssemble_refused ha hb⟩
  · rw [exec_demAssemble ha hb hoffset rfl, if_pos (hout ▸ hfits)]
  · exact assembleSymbols_getElem? chs (hleast ▸ hj) hch
  · rw [exec_demAssemble ha hb hoffset rfl, if_neg (Nat.not_le.2 (hout ▸ hfull))]

end Sys2Proof.Machine
end

section
/-! PROOFS. The Gardner loop (R471, R474, R477): every point is its predecessor's step, and what the bounds of a
step make of the points. -/

namespace Sys2Proof.Machine

section

variable (N : NumOps) (s : List Number) (p : Nat) (thr : Number)

/-! ### One pass (R471) -/

/-- The nudge of a pass from its samples: `x` at the point, `y` at the point before it and `z` midway. -/
def sampleNudge (N : NumOps) (thr x y z : Number) : Int :=
  if N.lt (N.mul x y) (N.ofInt 0) then
    if N.gt (N.mul (N.sub x y) z) thr then -1
    else if N.lt (N.mul (N.sub x y) z) (N.neg thr) then 1
    else 0
  else 0

/-- The nudge of the pass whose sample point is `k`. -/
def nudgeAt (N : NumOps) (s : List Number) (p : Nat) (thr : Number) (k : Int) : Int :=
  sampleNudge N thr (sampleAt N s k) (sampleAt N s (k - p)) (sampleAt N s (k - (p / 2 : Nat)))

/-- The point the loop tries after the sample point `k`. -/
def pointAfter (N : NumOps) (s : List Number) (p : Nat) (thr : Number) (k : Int) : Int :=
  k + p + nudgeAt N s p thr k

theorem sampleNudge_bounds (x y z : Number) : -1 ≤ sampleNudge N thr x y z ∧ sampleNudge N thr x y z ≤ 1 := by
  unfold sampleNudge
  split_ifs <;> decide

/-- R477 (b), for one pass. -/
theorem pointAfter_bounds (k : Int) :
    k + (p - 1) ≤ pointAfter N s p thr k ∧ pointAfter N s p thr k ≤ k + (p + 1) := by
  have := sampleNudge_bounds N thr (sampleAt N s k) (sampleAt N s (k - p)) (sampleAt N s (k - (p / 2 : Nat)))
  unfold pointAfter nudgeAt
  omega

theorem lt_pointAfter {p : Nat} (hp : 2 ≤ p) (k : Int) : k < pointAfter N s p thr k := by
  have := (pointAfter_bounds N s p thr k).1
  omega

/-- A pass adds its nudge to the offset. -/
theorem gardnerNudge_eq (k offset : Int) :
    gardnerNudge N s p thr k offset = offset + nudgeAt N s p thr k := by
  simp only [gardnerNudge, nudgeAt, sampleNudge]
  split_ifs <;> omega

theorem sampleAt_of_getElem? {N : NumOps} {s : List Number} {k : Int} {x : Number}
    (hx : s[k.toNat]? = some x) : sampleAt N s k = x := by
  rw [sampleAt, List.getD_eq_getElem?_getD, hx, Option.getD_some]

/-! ### The loop, pass by pass (R471) -/

/-- The point of the pass with symbol index `n`. -/
def gardnerPoint (p : Nat) (offset : Int) (n : Nat) : Int := (n * p : Nat) + offset

/-- The next pass tries the point after this one's. -/
theorem gardnerPoint_succ (offset : Int) (n : Nat) :
    gardnerPoint p (gardnerNudge N s p thr (gardnerPoint p offset n) offset) (n + 1) =
      pointAfter N s p thr (gardnerPoint p offset n) := by
  rw [gardnerNudge_eq, pointAfter, gardnerPoint, Nat.succ_mul]
  generalize nudgeAt N s p thr _ = d
  rw [gardnerPoint]
  omega

variable {N s p thr} {passes n : Nat} {offset : Int}

theorem gardnerLoop_of_lt (h : gardnerPoint p offset n < s.length) :
    gardnerLoop N s p thr (passes + 1) offset n =
      { gardnerLoop N s p thr passes (gardnerNudge N s p thr (gardnerPoint p offset n) offset) (n + 1) with
        idx := gardnerPoint p offset n ::
          (gardnerLoop N s p thr passes (gardnerNudge N s p thr (gardnerPoint p offset n) offset) (n + 1)).idx } :=
  if_pos h

theorem gardnerLoop_of_not_lt (h : ¬gardnerPoint p offset n < s.length) :
    gardnerLoop N s p thr passes offset n = ⟨[], offset, n⟩ := by
  cases passes with
  | zero => rfl
  | succ passes => exact if_neg h

theorem gardnerLoop_head?_of_lt (h : gardnerPoint p offset n < s.length) :
    (gardnerLoop N s p thr (passes + 1) offset n).idx.head? = some (gardnerPoint p offset n) := by
  rw [gardnerLoop_of_lt h, List.head?_cons]

/-- The loop records no point before the one its first pass tries. -/
theorem eq_gardnerPoint_of_mem_head? :
    ∀ k ∈ (gardnerLoop N s p thr passes offset n).idx.head?, k = gardnerPoint p offset n := by
  fun_cases gardnerLoop N s p thr passes offset n with
  | case1 | case3 => nofun
  | case2 passes next h => exact fun k hk => (Option.some.inj hk).symm

theorem gardnerLoop_length_le : (gardnerLoop N s p thr passes offset n).idx.length ≤ passes := by
  fun_induction gardnerLoop N s p thr passes offset n with
  | case1 => exact Nat.le_refl 0
  | case2 passes offset n next h r ih => exact Nat.succ_le_succ ih
  | case3 => exact Nat.zero_le _

/-- Every pass records one point. -/
theorem gardnerLoop_n :
    (gardnerLoop N s p thr passes offset n).n = n + (gardnerLoop N s p thr passes offset n).idx.length := by
  fun_induction gardnerLoop N s p thr passes offset n with
  | case1 | case3 => rfl
  | case2 passes offset n next h r ih => exact ih.trans (Nat.add_right_comm n 1 _)

theorem gardnerLoop_lt_length {k : Int} (hk : k ∈ (gardnerLoop N s p thr passes offset n).idx) : k < s.length := by
  fun_induction gardnerLoop N s p thr passes offset n with
  | case1 | case3 => cases hk
  | case2 passes offset n next h r ih =>
    rcases List.mem_cons.1 hk with rfl | hk
    · exact h
    · exact ih hk

/-- Each point is tried right after the one before it. -/
theorem gardnerLoop_isChain :
    (gardnerLoop N s p thr passes offset n).idx.IsChain fun k k' => k' = pointAfter N s p thr k := by
  fun_induction gardnerLoop N s p thr passes offset n with
  | case1 | case3 => exact .nil
  | case2 passes offset n next h r ih =>
    refine List.isChain_cons.2 ⟨fun k hk => ?_, ih⟩
    rw [eq_gardnerPoint_of_mem_head? k hk]
    exact gardnerPoint_succ N s p thr offset n

/-- With a pass for every sample from the first point tried on, the loop ends where its condition fails (R474). -/
theorem gardnerLoop_ends (hp : 2 ≤ p) (hpasses : s.length ≤ passes + gardnerPoint p offset n) :
    s.length ≤ gardnerPoint p (gardnerLoop N s p thr passes offset n).offset
      (gardnerLoop N s p thr passes offset n).n := by
  fun_induction gardnerLoop N s p thr passes offset n with
  | case1 => rwa [Nat.cast_zero, Int.zero_add] at hpasses
  | case2 passes offset n next h r ih =>
    have hgrows : gardnerPoint p offset n < gardnerPoint p (gardnerNudge N s p thr next offset) (n + 1) :=
      (lt_pointAfter N s thr hp _).trans_eq (gardnerPoint_succ N s p thr offset n).symm
    exact ih (by omega)
  | case3 passes offset n next h => exact Int.not_lt.1 h

/-! ### Without a nudge (R477) -/

/-- The multiples of `p` below `len`, from the `n`-th on. -/
def multiplesFrom (p len n : Nat) : List Int :=
  (List.range' n ((len - 1) / p + 1 - n)).map fun j => ((j * p : Nat) : Int)

theorem mul_lt_iff_le_div {len : Nat} (hp : 0 < p) (hn : 1 ≤ n) : n * p < len ↔ n ≤ (len - 1) / p := by
  rw [Nat.le_div_iff_mul_le hp]
  have hpos : 0 < n * p := Nat.mul_pos hn hp
  omega

theorem multiplesFrom_of_lt {len : Nat} (hp : 0 < p) (hn : 1 ≤ n) (h : n * p < len) :
    multiplesFrom p len n = ((n * p : Nat) : Int) :: multiplesFrom p len (n + 1) := by
  have hcount : (len - 1) / p + 1 - n = (len - 1) / p + 1 - (n + 1) + 1 := by
    have := (mul_lt_iff_le_div hp hn).1 h
    omega
  rw [multiplesFrom, hcount]
  rfl

theorem multiplesFrom_of_not_lt {len : Nat} (hp : 0 < p) (hn : 1 ≤ n) (h : ¬n * p < len) :
    multiplesFrom p len n = [] := by
  have hcount : (len - 1) / p + 1 - n = 0 := by
    have := (mul_lt_iff_le_div hp hn).not.1 h
    omega
  rw [multiplesFrom, hcount]
  rfl

theorem multiplesFrom_one (p len : Nat) :
    multiplesFrom p len 1 = (List.range ((len - 1) / p)).map fun j => (((j + 1) * p : Nat) : Int) := by
  rw [multiplesFrom, Nat.add_sub_cancel, List.range'_eq_map_range, List.map_map]
  exact List.map_congr_left fun j _ => by rw [Function.comp, Nat.add_comm]

/-- Where no pass nudges, the points are the multiples of `p` from the first one tried on. -/
theorem gardnerLoop_of_no_nudge (hp : 0 < p) (hn : 1 ≤ n) (hpasses : s.length ≤ passes + n * p)
    (hnudge : ∀ m : Nat, 1 ≤ m → m * p < s.length → gardnerNudge N s p thr (m * p : Nat) 0 = 0) :
    (gardnerLoop N s p thr passes 0 n).idx = multiplesFrom p s.length n := by
  induction passes generalizing n with
  | zero => exact (multiplesFrom_of_not_lt hp hn (by omega)).symm
  | succ passes ih =>
    have hpoint : gardnerPoint p 0 n = (n * p : Nat) := Int.add_zero _
    by_cases h : n * p < s.length
    · rw [gardnerLoop_of_lt (hpoint ▸ Int.ofNat_lt.2 h), hpoint, hnudge n hn h, multiplesFrom_of_lt hp hn h]
      exact congrArg _ (ih (Nat.le_succ_of_le hn) (by rw [Nat.succ_mul]; omega))
    · rw [gardnerLoop_of_not_lt (hpoint ▸ mt Int.ofNat_lt.1 h), multiplesFrom_of_not_lt hp hn h]

/-! ### The points of a signal (R474, R477) -/

theorem gardnerPoint_one : gardnerPoint p 0 1 = p := by
  rw [gardnerPoint, Nat.one_mul, Int.add_zero]

theorem gardner_head?_of_lt (h : p < s.length) : (gardner N s p thr).idx.head? = some (p : Int) := by
  have hpass : s.length = s.length - 1 + 1 := by omega
  have hpoint : gardnerPoint p 0 1 < s.length := by rwa [gardnerPoint_one, Int.ofNat_lt]
  rw [gardner, hpass, gardnerLoop_head?_of_lt hpoint, gardnerPoint_one]

theorem gardner_head?_eq_some {k : Int} (hk : (gardner N s p thr).idx.head? = some k) : k = p :=
  (eq_gardnerPoint_of_mem_head? k hk).trans gardnerPoint_one

theorem gardner_getElem_succ {j : Nat} (h : j + 1 < (gardner N s p thr).idx.length) :
    (gardner N s p thr).idx[j + 1] = pointAfter N s p thr (gardner N s p thr).idx[j] :=
  gardnerLoop_isChain.getElem j h

theorem gardner_pairwise (hp : 2 ≤ p) : (gardner N s p thr).idx.Pairwise (· < ·) :=
  (gardnerLoop_isChain.imp fun k _ hk => hk ▸ lt_pointAfter N s thr hp k).pairwise

/-- No point is before the first. -/
theorem le_of_mem_gardner (hp : 2 ≤ p) {k : Int} (hk : k ∈ (gardner N s p thr).idx) : p ≤ k := by
  obtain ⟨first, rest, hidx⟩ := List.exists_cons_of_ne_nil (List.ne_nil_of_mem hk)
  have hfirst : first = p := gardner_head?_eq_some (by rw [hidx, List.head?_cons])
  have hrises := gardner_pairwise (N := N) (s := s) (thr := thr) hp
  rw [hidx] at hk hrises
  rcases List.mem_cons.1 hk with rfl | hk
  · exact hfirst.ge
  · exact hfirst ▸ ((List.pairwise_cons.1 hrises).1 k hk).le

end

/-- Settles O54: every pass goes on by at least `p - 1`, so `|s|` passes reach the end of the signal. -/
theorem gardnerBounds : Obligations.GardnerBounds := by
  intro N xs p thr hp g
  refine ⟨gardnerLoop_length_le, gardnerLoop_n.trans (Nat.add_comm ..), ?_, fun k hk => ?_, gardner_pairwise hp,
    fun k => gardner_head?_eq_some, fun j h => ?_⟩
  · have hends := gardnerLoop_ends (N := N) (s := xs) (thr := thr) (passes := xs.length) (offset := 0) (n := 1) hp
      (by rw [gardnerPoint_one]; omega)
    exact_mod_cast hends
  · have hle : p ≤ k := le_of_mem_gardner hp hk
    have hlt := gardnerLoop_lt_length hk
    omega
  · have hnext : g.idx[j + 1] = pointAfter N xs p thr g.idx[j] := gardner_getElem_succ h
    have := (pointAfter_bounds N xs p thr g.idx[j]).1
    omega

/-- Settles O55: the samples at a point, before it and midway decide its nudge. -/
theorem gardnerRecurrence : Obligations.GardnerRecurrence := by
  intro N xs p thr hp idx
  refine ⟨gardner_head?_of_lt, fun j h x y z hx hy hz => ?_⟩
  rw [gardner_getElem_succ h, pointAfter, nudgeAt, sampleAt_of_getElem? hx, sampleAt_of_getElem? hy,
    sampleAt_of_getElem? hz]
  rfl

/-- Settles O56: without nudges every pass goes on by `p`, and a nudge is one sample at most. -/
theorem gardnerConvergence : Obligations.GardnerConvergence := by
  intro N xs p thr hp
  refine ⟨fun hnudge => ?_, fun j h => ?_⟩
  · exact (gardnerLoop_of_no_nudge (Nat.zero_lt_of_lt hp) (Nat.le_refl 1) (by omega) hnudge).trans
      (multiplesFrom_one p xs.length)
  · have := pointAfter_bounds N xs p thr (gardner N xs p thr).idx[j]
    rw [gardner_getElem_succ h]
    omega

end Sys2Proof.Machine
end

section
/-! PROOFS. The commands TR_GARDNER and TR_DECIDE (R470, R472, R476, R480). -/

namespace Sys2Proof.Machine

theorem existing_indices {s : State} {h : Handle} {ks : List Bits64} (hks : Holds s h (.indices ks)) :
    existing s h Obj.asIndices = .ok ks := existing_of_holds hks rfl

section

variable {a b c : Handle} {r : IReg} {xs : List Number} {ks : List Bits64} {s : State} (ha : Vacant s a)
  (hb : Holds s b (.reals xs))
include ha hb

/-- There are at most as many points as samples (R474), so the points of a list that fits do fit. -/
theorem exec_trGardner {g : GardnerOut} (hxs : xs.length ≤ Config.params.maxElems) (hr : 2 ≤ (s.getI r).toInt)
    (hg : gardner Config.params.num xs (s.getI r).toInt.toNat s.cfg.gthresh = g) :
    exec (.trGardner a b r) s = .next (afterOk
      ((((s.putObj a (.indices (g.idx.map (BitVec.ofInt 64)))).setRInt 0 g.offset).setRNat 1 g.n).setRNat 2
        g.idx.length)) := by
  have hfits : g.idx.length ≤ Config.params.maxElems := hg ▸ gardnerLoop_length_le.trans hxs
  refine exec_afterOk ?_
  simp only [commandRule, trGardnerRule, fresh_of_vacant ha, existing_reals hb, ok_bind,
    require_of (decide_eq_true hr), hg, requireElems_of hfits, done]

theorem exec_trGardner_refused (hr : (s.getI r).toInt < 2) :
    exec (.trGardner a b r) s = .next (afterFailure (.trGardner a b r) s .invalidValue) := by
  refine exec_afterFailure ?_
  simp only [commandRule, trGardnerRule, fresh_of_vacant ha, existing_reals hb, ok_bind,
    require_not (decide_eq_false (Int.not_le.2 hr)), error_bind]

variable (hc : Holds s c (.indices ks))
include hc

theorem exec_trDecide {out : List Byte} (hks : ks.length ≤ Config.params.maxElems)
    (hin : ∀ k ∈ ks, 0 ≤ k.toInt ∧ k.toInt < xs.length)
    (hout : (ks.map fun k => decideSymbol Config.params.num (sampleAt Config.params.num xs k.toInt)) = out) :
    exec (.trDecide a b c) s = .next (afterOk ((s.putObj a (.symbols out)).setRNat 0 ks.length)) := by
  have hcheck : (ks.all fun k => 0 ≤ k.toInt && k.toInt < xs.length) = true := by
    simpa only [List.all_eq_true, Bool.and_eq_true, decide_eq_true_eq] using hin
  refine exec_afterOk ?_
  simp only [commandRule, trDecideRule, fresh_of_vacant ha, existing_reals hb, existing_indices hc, ok_bind,
    require_of hcheck, requireElems_of hks, hout, done]

theorem exec_trDecide_refused (hout : ∃ k ∈ ks, k.toInt < 0 ∨ xs.length ≤ k.toInt) :
    exec (.trDecide a b c) s = .next (afterFailure (.trDecide a b c) s .invalidValue) := by
  have hcheck : (ks.all fun k => 0 ≤ k.toInt && k.toInt < xs.length) = false := by
    obtain ⟨k, hk, hbad⟩ := hout
    refine List.all_eq_false.2 ⟨k, hk, ?_⟩
    simp only [Bool.and_eq_true, decide_eq_true_eq]
    omega
  refine exec_afterFailure ?_
  simp only [commandRule, trDecideRule, fresh_of_vacant ha, existing_reals hb, existing_indices hc, ok_bind,
    require_not hcheck, error_bind]

end

/-- Settles O53: the operands' checks, and the loop's and the decision's results. -/
theorem timingCommands : Obligations.TimingCommands := by
  intro a b c r xs s ha hb N g
  refine ⟨fun hxs hr => exec_trGardner ha hb hxs hr rfl, exec_trGardner_refused ha hb,
    fun ks hc hks hin => ⟨_, exec_trDecide ha hb hc hks hin rfl, List.length_map .., fun j k v hk hv => ?_⟩,
    fun ks hc => exec_trDecide_refused ha hb hc⟩
  rw [List.getElem?_map, hk, Option.map_some, sampleAt_of_getElem? hv]
  rfl

end Sys2Proof.Machine
end

section
/-! PROOFS. The state after reset (R700), the machine's never stopping (R600, R632), and the atomicity of a failing
status (R604). -/

namespace Sys2Proof.Machine

/-! ### The registers after reset (R53 to R57, R700) -/

@[simp] theorem State.getI_resetWith (P : Params) (r : IReg) : (State.resetWith P).getI r = 0 :=
  Vector.getElem_replicate ..

@[simp] theorem State.getF_resetWith (P : Params) (r : FReg) : (State.resetWith P).getF r = P.num.ofInt 0 :=
  Vector.getElem_replicate ..

@[simp] theorem State.getR_resetWith (P : Params) (r : RReg) : (State.resetWith P).getR r = 0 :=
  Vector.getElem_replicate ..

@[simp] theorem State.getRF_resetWith (P : Params) (r : RReg) : (State.resetWith P).getRF r = P.num.ofInt 0 :=
  Vector.getElem_replicate ..

/-- The `Int` configuration registers are 0 after reset. -/
theorem Cfg.get_resetWith_of_isInt (P : Params) {c : CfgReg} (hc : c.isInt = true) :
    (Cfg.resetWith P).get c = .int 0 := by
  cases c with
  | bps | srate | sps | expf | sepi | bwdiv | dsps => rfl
  | carrier | fmin | fmax | gthresh => cases hc

/-- The `Num` configuration registers but `GTHRESH` are 0 after reset. -/
theorem Cfg.get_resetWith_of_num (P : Params) {c : CfgReg} (hc : c = .carrier ∨ c = .fmin ∨ c = .fmax) :
    (Cfg.resetWith P).get c = .num (P.num.ofInt 0) := by
  rcases hc with rfl | rfl | rfl <;> rfl

/-- Settles O8: the block's registers, the decoder and the object memory as `resetWith` builds them. -/
theorem resetValues : Obligations.ResetValues :=
  ⟨rfl, rfl, rfl, rfl, State.getI_resetWith _, State.getF_resetWith _, State.getR_resetWith _,
    State.getRF_resetWith _, fun _ => Cfg.get_resetWith_of_isInt _, fun _ => Cfg.get_resetWith_of_num _, rfl,
    fun _ => rfl⟩

/-! ### Every step has a next state (R600) -/

theorem executeWords_eq_next (h : Word) (ext : List Word) (s : State) : ∃ t, executeWords h ext s = .next t := by
  rcases executeWords_cases h ext s with ⟨-, -, heq⟩ | ⟨i, -, heq⟩
  · exact ⟨_, heq⟩
  · exact ⟨_, heq.trans (exec_eq_next i s)⟩

theorem issueWord_eq_next (w : Word) (s : State) : ∃ t, issueWord w s = .next t := by
  unfold issueWord
  split <;> split
  case h_1.isTrue | h_2.isTrue => exact executeWords_eq_next ..
  case h_1.isFalse | h_2.isFalse => exact ⟨_, rfl⟩

theorem hostStep_eq_next (op : HostOp) (s : State) : ∃ t, hostStep op s = .next t := by
  cases op with
  | issue w => exact issueWord_eq_next w s
  | read a => exact ⟨_, rfl⟩
  | resetLine => exact ⟨_, rfl⟩

theorem step_eq_next (s : State) : ∃ t, step s = .next t := by
  cases hp : s.pending with
  | nil => exact ⟨s, step_of_waiting hp⟩
  | cons op rest =>
    rw [step_of_pending hp]
    exact hostStep_eq_next ..

/-- A step that has a next state is followed by the rest of the run. -/
theorem run_succ_of_step {M : Host.Core} {s t : M.State} (h : M.step s = .next t) (k : Nat) :
    M.run (k + 1) s = M.run k t := by
  rw [Host.Core.run, h]

theorem neverStops (s : State) : NeverStops s := by
  intro k
  induction k generalizing s with
  | zero => exact ⟨s, rfl⟩
  | succ k ih =>
    obtain ⟨t, ht⟩ := step_eq_next s
    obtain ⟨u, hu⟩ := ih t
    exact ⟨u, (run_succ_of_step (M := core) ht k).trans hu⟩

/-- Settles O9: every step has a next state, so every run goes on; with nothing pending the step is a wait. -/
theorem machineNeverStops : Obligations.MachineNeverStops := ⟨neverStops, fun _ => step_of_waiting⟩

/-! ### A failing status (R604) -/

/-- The codes of the non-failing statuses are 0 to 2 (R600). -/
theorem Completion.code_le_two (c : Completion) : c.code ≤ 2 := by cases c <;> decide

/-- Settles O10: only a rule that raises ends with a code of 3 or more, and then the status is recorded in the
state before the command. -/
theorem failingStatusAtomic : Obligations.FailingStatusAtomic := by
  intro i s t h hfail
  rcases exec_cases h with ⟨e, -, rfl⟩ | ⟨c, s', -, rfl⟩
  · rfl
  · have hcode : (completeWith (headerWord i) s' c).status.toNat = c.code := toNat_ofNat_code c.code_le
    have := c.code_le_two
    omega

end Sys2Proof.Machine
end

section
/-! PROOFS. The correlation of the frame synchronizer (R501 to R504): what a correlation value is, its bounds, when it
reaches the upper one, and where its first maximum lies. -/

namespace Sys2Proof.Machine

/-! ### One term of a correlation value (R501, R502) -/

theorem bip_eq_or (x : Byte) : bip x = -1 ∨ bip x = 1 := ite_eq_or_eq ..

theorem bip_mul_bip (x y : Byte) : bip x * bip y = if bip x = bip y then 1 else -1 := by
  rcases bip_eq_or x with hx | hx <;> rcases bip_eq_or y with hy | hy <;> rw [hx, hy] <;> decide

section

variable {r s : List Byte} {m i : Nat}

/-- The received index of the term exists: the term is the bipolar product. -/
theorem corrTerm_of_mem (hi : i < s.length) (hm : s.length ≤ m + 1 + i ∧ m + 1 + i - s.length < r.length) :
    corrTerm r s m i = bip (r.getD (m + 1 + i - s.length) 0) * bip (s.getD i 0) := by
  simp only [corrTerm, if_pos hm.1, List.getElem?_eq_getElem hm.2, List.getElem?_eq_getElem hi,
    List.getD_eq_getElem _ _ hm.2, List.getD_eq_getElem _ _ hi]

/-- The received index of the term falls outside the stream. -/
theorem corrTerm_of_not_mem (hm : ¬(s.length ≤ m + 1 + i ∧ m + 1 + i - s.length < r.length)) :
    corrTerm r s m i = 0 := by
  unfold corrTerm
  split
  case isTrue hle =>
    have hnone : r[m + 1 + i - s.length]? = none := List.getElem?_eq_none (by omega)
    simp only [hnone]
  case isFalse => rfl

theorem corrTerm_bounds (hi : i < s.length) : -1 ≤ corrTerm r s m i ∧ corrTerm r s m i ≤ 1 := by
  by_cases hm : s.length ≤ m + 1 + i ∧ m + 1 + i - s.length < r.length
  · rw [corrTerm_of_mem hi hm, bip_mul_bip]
    split_ifs <;> decide
  · rw [corrTerm_of_not_mem hm]
    decide

/-- A term is 1 exactly where its received symbol exists and agrees with the sentinel's. -/
theorem corrTerm_eq_one_iff (hi : i < s.length) :
    corrTerm r s m i = 1 ↔
      s.length ≤ m + 1 + i ∧ r[m + 1 + i - s.length]?.map bip = s[i]?.map bip := by
  by_cases hm : s.length ≤ m + 1 + i ∧ m + 1 + i - s.length < r.length
  · rw [corrTerm_of_mem hi hm, bip_mul_bip, List.getD_eq_getElem _ _ hm.2, List.getD_eq_getElem _ _ hi,
      List.getElem?_eq_getElem hm.2, List.getElem?_eq_getElem hi]
    simp [hm.1]
  · rw [corrTerm_of_not_mem hm, List.getElem?_eq_getElem hi]
    refine iff_of_false zero_ne_one fun ⟨hle, heq⟩ => ?_
    rw [List.getElem?_eq_none (by omega)] at heq
    cases heq

end

/-! ### A correlation value (R502) -/

/-- The sentinel agrees with the received symbols from index `k` on, symbol for symbol. -/
def MatchesAt (r s : List Byte) (k : Nat) : Prop := ((r.drop k).take s.length).map bip = s.map bip

section

variable {r s : List Byte} {m k : Nat}

theorem corrAt_eq_sum : corrAt r s m = ∑ i ∈ Finset.range s.length, corrTerm r s m i := rfl

theorem matchesAt_iff : MatchesAt r s k ↔ ∀ i < s.length, r[k + i]?.map bip = s[i]?.map bip := by
  rw [MatchesAt, List.ext_getElem?_iff]
  refine forall_congr' fun i => ?_
  rw [List.getElem?_map, List.getElem?_map, List.getElem?_take]
  split
  case isTrue hi => simp only [List.getElem?_drop, hi, true_imp_iff]
  case isFalse hi => simp only [List.getElem?_eq_none (Nat.le_of_not_lt hi), hi, false_imp_iff]

/-- Every index of a match of a sentinel that is not empty lies in the stream. -/
theorem MatchesAt.lt_length (h : MatchesAt r s k) (hs : s ≠ []) : k + s.length - 1 < r.length := by
  have hpos := List.length_pos_of_ne_nil hs
  have hlen := congrArg List.length h
  rw [List.length_map, List.length_map, List.length_take, List.length_drop] at hlen
  omega

theorem corrAt_bounds : -(s.length : Int) ≤ corrAt r s m ∧ corrAt r s m ≤ s.length := by
  rw [corrAt_eq_sum]
  constructor
  · have h := Finset.card_nsmul_le_sum (Finset.range s.length) (corrTerm r s m) (-1)
      fun i hi => (corrTerm_bounds (Finset.mem_range.1 hi)).1
    simpa using h
  · have h := Finset.sum_le_card_nsmul (Finset.range s.length) (corrTerm r s m) 1
      fun i hi => (corrTerm_bounds (Finset.mem_range.1 hi)).2
    simpa using h

/-- A sum of terms of at most 1 is their number exactly where each is 1. -/
theorem corrAt_eq_length_iff_terms :
    corrAt r s m = s.length ↔ ∀ i < s.length, corrTerm r s m i = 1 := by
  have hle : ∀ i ∈ Finset.range s.length, corrTerm r s m i ≤ 1 :=
    fun i hi => (corrTerm_bounds (Finset.mem_range.1 hi)).2
  have h := Finset.sum_eq_sum_iff_of_le hle
  rw [Finset.sum_const, Finset.card_range, nsmul_one] at h
  simpa only [corrAt_eq_sum, Finset.mem_range] using h

/-- The greatest value is reached exactly at a match whose last symbol is on index `m`. -/
theorem corrAt_eq_length_iff (hm : m < r.length + s.length - 1) :
    corrAt r s m = s.length ↔ ∃ k, m + 1 = k + s.length ∧ m < r.length ∧ MatchesAt r s k := by
  rw [corrAt_eq_length_iff_terms]
  rcases eq_or_ne s [] with rfl | hs
  · exact iff_of_true nofun ⟨m + 1, rfl, by simpa using Nat.lt_of_lt_pred hm, rfl⟩
  have hpos := List.length_pos_of_ne_nil hs
  constructor
  · intro hterms
    have hle := ((corrTerm_eq_one_iff hpos).1 (hterms 0 hpos)).1
    obtain ⟨k, hk⟩ : ∃ k, m + 1 = k + s.length := ⟨m + 1 - s.length, by omega⟩
    have hmatch : MatchesAt r s k := matchesAt_iff.2 fun i hi => by
      have hterm := ((corrTerm_eq_one_iff hi).1 (hterms i hi)).2
      rwa [show m + 1 + i - s.length = k + i by omega] at hterm
    exact ⟨k, hk, by have := hmatch.lt_length hs; omega, hmatch⟩
  · rintro ⟨k, hk, -, hmatch⟩ i hi
    refine (corrTerm_eq_one_iff hi).2 ⟨by omega, ?_⟩
    rw [show m + 1 + i - s.length = k + i by omega]
    exact matchesAt_iff.1 hmatch i hi

/-- The terms whose received index does not exist add nothing. -/
theorem corrAt_eq_sum_filter :
    corrAt r s m =
      (((List.range s.length).filter fun i =>
        decide (s.length ≤ m + 1 + i ∧ m + 1 + i - s.length < r.length)).map fun i =>
          bip (r.getD (m + 1 + i - s.length) 0) * bip (s.getD i 0)).sum :=
  calc
    corrAt r s m = ∑ i ∈ Finset.range s.length, corrTerm r s m i := corrAt_eq_sum
    _ = ∑ i ∈ Finset.range s.length with s.length ≤ m + 1 + i ∧ m + 1 + i - s.length < r.length,
          corrTerm r s m i :=
      (Finset.sum_filter_of_ne fun _ _ hne => not_not.1 fun hm => hne (corrTerm_of_not_mem hm)).symm
    _ = ∑ i ∈ Finset.range s.length with s.length ≤ m + 1 + i ∧ m + 1 + i - s.length < r.length,
          bip (r.getD (m + 1 + i - s.length) 0) * bip (s.getD i 0) :=
      Finset.sum_congr rfl fun i hi => by
        obtain ⟨hlt, hm⟩ := Finset.mem_filter.1 hi
        exact corrTerm_of_mem (Finset.mem_range.1 hlt) hm
    _ = _ := rfl

end

/-- Settles O58: a term is 1, 0 or -1, and it is 1 exactly where the two symbols are there and agree. -/
theorem correlationBounds : Obligations.CorrelationBounds := fun _ _ _ hm =>
  ⟨corrAt_eq_sum_filter, corrAt_bounds.1, corrAt_bounds.2, corrAt_eq_length_iff hm⟩

/-! ### The first maximum (R503) -/

/-- `pos` is the first of the indices below `n` at which `f` is greatest. -/
def IsFirstMax (f : Nat → Int) (n pos : Nat) : Prop :=
  pos < n ∧ (∀ m < n, f m ≤ f pos) ∧ ∀ m < pos, f m < f pos

theorem IsFirstMax.unique {f : Nat → Int} {n p q : Nat} (hp : IsFirstMax f n p) (hq : IsFirstMax f n q) : p = q := by
  obtain ⟨hpn, hpmax, hpfirst⟩ := hp
  obtain ⟨hqn, hqmax, hqfirst⟩ := hq
  rcases Nat.lt_trichotomy p q with hlt | heq | hgt
  · exact absurd (hpmax q hqn) (not_le.2 (hqfirst p hlt))
  · exact heq
  · exact absurd (hqmax p hpn) (not_le.2 (hpfirst q hgt))

/-- One more index replaces the best so far exactly where it has a greater value. -/
theorem IsFirstMax.succ {f : Nat → Int} {n p : Nat} (hp : IsFirstMax f n p) :
    IsFirstMax f (n + 1) (if f p < f n then n else p) := by
  obtain ⟨hpn, hmax, hfirst⟩ := hp
  split
  case isTrue hlt =>
    have hbelow : ∀ m < n, f m < f n := fun m hm => (hmax m hm).trans_lt hlt
    exact ⟨Nat.lt_succ_self n, Nat.forall_lt_succ_right.2 ⟨fun m hm => (hbelow m hm).le, le_rfl⟩, hbelow⟩
  case isFalse hge =>
    exact ⟨Nat.lt_succ_of_lt hpn, Nat.forall_lt_succ_right.2 ⟨hmax, not_lt.1 hge⟩, hfirst⟩

theorem firstMax_range (f : Nat → Int) (n : Nat) : IsFirstMax f (n + 1) (firstMax f 0 (List.range (n + 1))) := by
  induction n with
  | zero =>
    have hfirst : firstMax f 0 (List.range 1) = 0 := ite_self 0
    rw [hfirst]
    exact ⟨Nat.one_pos, fun m hm => (congrArg f (Nat.lt_one_iff.1 hm)).le, nofun⟩
  | succ n ih =>
    rw [List.range_succ, firstMax, List.foldl_append]
    exact ih.succ

/-! ### Locating the sentinel (R503, R504) -/

section

variable {r s : List Byte} {pos : Nat}

theorem locate_of_nil (h : r = [] ∨ s = []) : locate r s = none := by
  have hempty : (r.length = 0 || s.length = 0) = true := by
    simpa only [Bool.or_eq_true, decide_eq_true_eq, List.length_eq_zero_iff] using h
  exact if_pos hempty

/-- With two lists to correlate, the first maximum is the answer where it lies in the received list. -/
theorem locate_of_isFirstMax (hr : r ≠ []) (hs : s ≠ [])
    (hpos : IsFirstMax (corrAt r s) (r.length + s.length - 1) pos) :
    locate r s = if pos < r.length then some pos else none := by
  have hrlen := List.length_pos_of_ne_nil hr
  have hslen := List.length_pos_of_ne_nil hs
  have hempty : ¬(r.length = 0 || s.length = 0) = true := by
    simp only [Bool.or_eq_true, decide_eq_true_eq]
    omega
  have hfirst : firstMax (corrAt r s) 0 (corrIndices r s) = pos := by
    have hcount : r.length + s.length - 1 = r.length + s.length - 2 + 1 := by omega
    rw [hcount] at hpos
    rw [corrIndices, hcount]
    exact (firstMax_range _ _).unique hpos
  simp only [locate, if_neg hempty, hfirst]

theorem exists_isFirstMax (hr : r ≠ []) (hs : s ≠ []) :
    ∃ pos, IsFirstMax (corrAt r s) (r.length + s.length - 1) pos := by
  have hrlen := List.length_pos_of_ne_nil hr
  have hslen := List.length_pos_of_ne_nil hs
  rw [show r.length + s.length - 1 = r.length + s.length - 2 + 1 by omega]
  exact ⟨_, firstMax_range _ _⟩

theorem locate_eq_some (hs : s ≠ []) (hpos : pos < r.length)
    (hmax : ∀ m < r.length + s.length - 1, corrAt r s m ≤ corrAt r s pos)
    (hfirst : ∀ m < pos, corrAt r s m < corrAt r s pos) : locate r s = some pos := by
  have hslen := List.length_pos_of_ne_nil hs
  have hr : r ≠ [] := List.ne_nil_of_length_pos (Nat.zero_lt_of_lt hpos)
  rw [locate_of_isFirstMax hr hs ⟨by omega, hmax, hfirst⟩, if_pos hpos]

/-- Where every index of the received list is exceeded by another, the maximum lies beyond the list. -/
theorem locate_eq_none
    (hbeyond : ∀ pos < r.length, ∃ m < r.length + s.length - 1, corrAt r s pos < corrAt r s m) :
    locate r s = none := by
  by_cases hnil : r = [] ∨ s = []
  · exact locate_of_nil hnil
  · obtain ⟨hr, hs⟩ := not_or.1 hnil
    obtain ⟨pos, hpos⟩ := exists_isFirstMax hr hs
    rw [locate_of_isFirstMax hr hs hpos, if_neg]
    intro hlt
    obtain ⟨m, hm, hexceeds⟩ := hbeyond pos hlt
    obtain ⟨-, hmax, -⟩ := hpos
    exact absurd (hmax m hm) (not_le.2 hexceeds)

/-- The first match is located by its last symbol. -/
theorem locate_of_matchesAt {k : Nat} (hs : s ≠ []) (hk : MatchesAt r s k)
    (hfirst : ∀ j < k, ¬MatchesAt r s j) : locate r s = some (k + s.length - 1) := by
  have hslen := List.length_pos_of_ne_nil hs
  have hpos := hk.lt_length hs
  have htop : corrAt r s (k + s.length - 1) = s.length :=
    (corrAt_eq_length_iff (by omega)).2 ⟨k, by omega, hpos, hk⟩
  refine locate_eq_some hs hpos (fun m _ => htop ▸ corrAt_bounds.2) fun m hm => ?_
  rw [htop]
  refine corrAt_bounds.2.lt_of_ne fun heq => ?_
  obtain ⟨j, hj, -, hmatch⟩ := (corrAt_eq_length_iff (by omega)).1 heq
  exact hfirst j (by omega) hmatch

theorem matchesAt_append (pre sent post : List Byte) : MatchesAt (pre ++ sent ++ post) sent pre.length := by
  rw [MatchesAt, List.append_assoc, List.drop_left, List.take_left]

end

/-- Settles O59: the inserted sentinel is the first match. -/
theorem sentinelLocated : Obligations.SentinelLocated := fun pre post sent hs hfirst =>
  locate_of_matchesAt hs (matchesAt_append pre sent post) hfirst

end Sys2Proof.Machine
end

section
/-! PROOFS. The commands SYNC_LOCATE (R500, R504) and SYNC_MULTI (R510), and the vote of the channels. -/

namespace Sys2Proof.Machine

theorem existing_symbols {s : State} {h : Handle} {xs : List Byte} (hxs : Holds s h (.symbols xs)) :
    existing s h Obj.asSymbols = .ok xs := existing_of_holds hxs rfl

theorem existing_chanSyms {s : State} {h : Handle} {chs : Bank (List Byte)} (hchs : Holds s h (.chanSyms chs)) :
    existing s h Obj.asChanSyms = .ok chs := existing_of_holds hchs rfl

/-! ### SYNC_LOCATE (R500, R504) -/

section

variable {a b : Handle} {r sent : List Byte} {s : State} (ha : Holds s a (.symbols r))
  (hb : Holds s b (.symbols sent))
include ha hb

theorem exec_syncLocate {pos : Nat} (hpos : locate r sent = some pos) :
    exec (.syncLocate a b) s = .next (afterOk
      (((s.setRNat 0 pos).setRInt 1 (corrAt r sent pos)).setRInt 2 ((pos : Int) - sent.length + 1))) := by
  refine exec_afterOk ?_
  simp only [commandRule, syncLocateRule, existing_symbols ha, existing_symbols hb, ok_bind, hpos, done]

theorem exec_syncLocate_refused (hnone : locate r sent = none) :
    exec (.syncLocate a b) s = .next (afterFailure (.syncLocate a b) s .syncError) := by
  refine exec_afterFailure ?_
  simp only [commandRule, syncLocateRule, existing_symbols ha, existing_symbols hb, ok_bind, hnone]

end

/-- Settles O57: `locate` answers the first maximum inside the received list, and nothing where there is none. -/
theorem syncLocateCommand : Obligations.SyncLocateCommand := by
  intro a b r sent s ha hb
  refine ⟨fun pos hs hpos hmax hfirst => exec_syncLocate ha hb (locate_eq_some hs hpos hmax hfirst), fun h => ?_⟩
  refine exec_syncLocate_refused ha hb ?_
  rcases h with hr | hs | hbeyond
  · exact locate_of_nil (.inl hr)
  · exact locate_of_nil (.inr hs)
  · exact locate_eq_none hbeyond

/-! ### The vote (R510) -/

/-- `best` has more votes than `v`, or as many and is no greater. -/
def Leads (ok : List Nat) (best v : Nat) : Prop :=
  votes ok v < votes ok best ∨ (votes ok v = votes ok best ∧ best ≤ v)

section

variable {ok : List Nat} {u v w : Nat}

theorem votes_eq_count (ok : List Nat) (v : Nat) : votes ok v = ok.count v := rfl

theorem beats_eq_true_iff : beats ok w v = true ↔ ¬Leads ok v w := by
  simp only [beats, Leads, Bool.or_eq_true, Bool.and_eq_true, decide_eq_true_eq]
  omega

theorem Leads.refl (ok : List Nat) (v : Nat) : Leads ok v v := .inr ⟨rfl, Nat.le_refl v⟩

theorem Leads.of_not (h : ¬Leads ok v w) : Leads ok w v := by
  unfold Leads at *
  omega

theorem Leads.trans (huv : Leads ok u v) (hvw : Leads ok v w) : Leads ok u w := by
  unfold Leads at *
  omega

theorem Leads.antisymm (huv : Leads ok u v) (hvu : Leads ok v u) : u = v := by
  unfold Leads at *
  omega

/-- The running best is one of the offsets met, and leads all of them. -/
theorem foldl_beats_leads (ok rest : List Nat) (v : Nat) :
    let best := rest.foldl (fun b w => if beats ok w b then w else b) v
    best ∈ v :: rest ∧ ∀ w ∈ v :: rest, Leads ok best w := by
  induction rest generalizing v with
  | nil => simp [Leads.refl]
  | cons w rest ih =>
    simp only [List.foldl_cons]
    split
    case isTrue hbeats =>
      obtain ⟨hmem, hleads⟩ := ih w
      have hwv : Leads ok w v := .of_not (beats_eq_true_iff.1 hbeats)
      exact ⟨List.mem_cons_of_mem v hmem,
        List.forall_mem_cons.2 ⟨(hleads w List.mem_cons_self).trans hwv, hleads⟩⟩
    case isFalse hkeeps =>
      obtain ⟨hmem, hleads⟩ := ih v
      obtain ⟨hv, hrest⟩ := List.forall_mem_cons.1 hleads
      have hvw : Leads ok v w := not_not.1 (mt beats_eq_true_iff.2 hkeeps)
      refine ⟨?_, List.forall_mem_cons.2 ⟨hv, List.forall_mem_cons.2 ⟨hv.trans hvw, hrest⟩⟩⟩
      rcases List.mem_cons.1 hmem with heq | hin
      · exact List.mem_cons.2 (.inl heq)
      · exact List.mem_cons_of_mem v (List.mem_cons_of_mem w hin)

/-- The offset that leads all others is the one reported (R510). -/
theorem modeOffset_eq_some {best : Nat} (hbest : best ∈ ok) (hleads : ∀ v ∈ ok, Leads ok best v) :
    modeOffset ok = some best := by
  cases ok with
  | nil => cases hbest
  | cons v rest =>
    obtain ⟨hmem, hall⟩ := foldl_beats_leads (v :: rest) rest v
    exact congrArg some ((hall best hbest).antisymm (hleads _ hmem))

end

/-! ### SYNC_MULTI (R510) -/

section

variable {a b : Handle} {chs : Bank (List Byte)} {sent : List Byte} {s : State}
  (ha : Holds s a (.chanSyms chs)) (hb : Holds s b (.symbols sent))
include ha hb

theorem exec_syncMulti {best : Nat} (hbest : modeOffset (locatedOffsets chs sent) = some best) :
    exec (.syncMulti a b) s = .next (afterOk
      (((s.setRNat 0 best).setRNat 1 (locatedOffsets chs sent).length).setRNat 2
        (votes (locatedOffsets chs sent) best))) := by
  refine exec_afterOk ?_
  simp only [commandRule, syncMultiRule, existing_chanSyms ha, existing_symbols hb, ok_bind, hbest, done]

theorem exec_syncMulti_refused (hnone : modeOffset (locatedOffsets chs sent) = none) :
    exec (.syncMulti a b) s = .next (afterFailure (.syncMulti a b) s .syncError) := by
  refine exec_afterFailure ?_
  simp only [commandRule, syncMultiRule, existing_chanSyms ha, existing_symbols hb, ok_bind, hnone]

end

/-- Settles O60: the vote's running best is the one offset that leads every other; with no offset there is no vote. -/
theorem syncMultiCommand : Obligations.SyncMultiCommand := by
  intro a b chs sent s ha hb ok
  refine ⟨fun best hbest hleads => ?_, fun hnone => ?_⟩
  · rw [← votes_eq_count]
    exact exec_syncMulti ha hb (modeOffset_eq_some hbest hleads)
  · exact exec_syncMulti_refused ha hb (congrArg modeOffset hnone)

end Sys2Proof.Machine
end
